-- ==== Sys2Proof/Word.lean ====
section
/-! DEFINITION. The word types of the block: the 64-bit words of the command port (R43), bytes and
the fixed eight-byte payload buffers of the receive side (R24, R25). Every value is unsigned (R8). -/

namespace Sys2Proof

/-- A payload byte (R33). -/
abbrev Byte := BitVec 8

/-- A word of the command port: CMD, DATA or RESP (R43). -/
abbrev Word64 := BitVec 64

/-- The value of a 32-bit register (R28), a duration or a countdown (decision D12: `TW` = 32). -/
abbrev Word32 := BitVec 32

/-- The 16-bit group-id datapath, filter masks and patterns (R5, decision D9). -/
abbrev GroupId := BitVec 16

/-- A 29-bit arbitration id (R5). -/
abbrev ArbId := BitVec 29

/-- The eight payload bytes that `RXF_DATA` and `RX_DATA` hold; byte k is entry k (R24, R25). -/
abbrev Payload := Vector Byte 8

end Sys2Proof
end

