-- ==== Sys2Proof/Syntax.lean ====
section
/-! DEFINITION. The commands of the block, one constructor per row of the opcode map (R54). Each operand
has exactly the width of its field (R53), so a term of `Instr` is a command whose fields all fit. -/

namespace Sys2Proof

/-- A host command with its operands as R45 to R53 assemble them. -/
inductive Instr where
  /-- NOP, format N (R90). -/
  | nop
  /-- LSET, format T: the timeout `DUR` in ticks (R46, R66). -/
  | lset (dur : Word32)
  /-- LRTG, format N (R67). -/
  | lrtg
  /-- LCHK, format N (R68). -/
  | lchk
  /-- LQRY, format N (R69). -/
  | lqry
  /-- FCLR, format N (R73). -/
  | fclr
  /-- FREG, format MP: `MASK` and `PAT` (R47, R74). -/
  | freg (mask pat : BitVec 16)
  /-- FEVAL, format G: `GID` (R48, R75). -/
  | feval (gid : GroupId)
  /-- FCNT, format N (R76). -/
  | fcnt
  /-- ENC, format GS: `GID` and the 32-bit `SID` (R49, R81). -/
  | enc (gid : GroupId) (sid : BitVec 32)
  /-- DEC, format XR: `EXT` (true = extended) and `RAW` (R50, R82). -/
  | dec (ext : Bool) (raw : ArbId)
  /-- SEND, format GL with the data word: `GID`, the offered length `LEN`, and `DATA` (R51, R86). -/
  | send (gid : GroupId) (len : BitVec 8) (data : Word64)
  /-- RECV, format N (R87). -/
  | recv
  /-- RDREG, format R: `REGNO` (R52, R91). -/
  | rdreg (regno : BitVec 8)
  deriving DecidableEq, Repr

end Sys2Proof
end

