-- ==== Sys2Proof/WellFormed.lean ====
section
/-! DEFINITION. The opcode map of R54 as data, and when a command word is well-formed by it. `Instr`
itself needs no check: its operands have exactly the widths of their fields. The decoder does not use
this file; it follows R55 and R56, and an obligation says that the two agree. -/

namespace Sys2Proof

/-- One row of the opcode map: a mnemonic with its match value and its mask (R54). -/
structure OpcodeRow where
  mnemonic : String
  value    : Word64
  mask     : Word64
  deriving DecidableEq, Repr

/-- The rows of the opcode map that stand for a command (R54). -/
def opcodeTable : List OpcodeRow :=
  [ ⟨"NOP",   0x0000000000000000, 0xFFFFFFFFFFFFFFFF⟩,
    ⟨"LSET",  0x1000000000000000, 0xFFFFFFFF00000000⟩,
    ⟨"LRTG",  0x2000000000000000, 0xFFFFFFFFFFFFFFFF⟩,
    ⟨"LCHK",  0x3000000000000000, 0xFFFFFFFFFFFFFFFF⟩,
    ⟨"LQRY",  0x4000000000000000, 0xFFFFFFFFFFFFFFFF⟩,
    ⟨"FCLR",  0x5000000000000000, 0xFFFFFFFFFFFFFFFF⟩,
    ⟨"FREG",  0x6000000000000000, 0xFFFFFFFF00000000⟩,
    ⟨"FEVAL", 0x7000000000000000, 0xFFFFFFFFFFFF0000⟩,
    ⟨"FCNT",  0x8000000000000000, 0xFFFFFFFFFFFFFFFF⟩,
    ⟨"ENC",   0x9000000000000000, 0xFFFF000000000000⟩,
    ⟨"DEC",   0xA000000000000000, 0xFFFFFFFEE0000000⟩,
    ⟨"SEND",  0xB000000000000000, 0xFFFF0000FFFFFF00⟩,
    ⟨"RECV",  0xC000000000000000, 0xFFFFFFFFFFFFFFFF⟩,
    ⟨"RDREG", 0xD000000000000000, 0xFFFFFFFFFFFFFF00⟩ ]

/-- A command word is an instance of a row when it has the row's value under the row's mask. -/
def OpcodeRow.covers (r : OpcodeRow) (cmd : Word64) : Bool :=
  cmd &&& r.mask == r.value

/-- A command word is well-formed when some row of the opcode map covers it: it has a legal opcode
and every reserved bit of its format is 0 (R44, R54). -/
def wellFormedWord (cmd : Word64) : Bool :=
  opcodeTable.any fun r => r.covers cmd

/-- No command word is an instance of both rows: they differ in a bit that both masks fix. -/
def OpcodeRow.disjoint (a b : OpcodeRow) : Bool :=
  (a.value ^^^ b.value) &&& (a.mask &&& b.mask) != 0

end Sys2Proof
end

