-- ==== Sys2Proof/Decode.lean ====
section
/-! DEFINITION. The decoder (R44 to R57, R59) and the encoder of command words. A transaction is the
64-bit command word with the 64-bit data word (R43); only SEND takes its operand from the data word
(R57). -/

namespace Sys2Proof

/-- The fault causes of R93. The decoder names the first two; a command's own check the others. -/
inductive FaultCause where
  /-- Opcode 0xE or 0xF (R55). -/
  | illegalOpcode
  /-- A reserved bit of the format is 1 (R56). -/
  | reservedBits
  /-- A standard frame whose id needs more than 11 bits (R79). -/
  | stdIdRange
  /-- An unassigned register number (R91). -/
  | illegalRegno
  deriving DecidableEq, Repr

/-- The command formats of R45 to R52. -/
inductive Format where
  | N | T | MP | G | GS | XR | GL | R
  deriving DecidableEq, Repr

/-- The reserved-field mask of a format, the OPC bits excluded (R56). -/
def reservedMask : Format → Word64
  | .N  => 0x0FFFFFFFFFFFFFFF
  | .T  => 0x0FFFFFFF00000000
  | .MP => 0x0FFFFFFF00000000
  | .G  => 0x0FFFFFFFFFFF0000
  | .GS => 0x0FFF000000000000
  | .XR => 0x0FFFFFFEE0000000
  | .GL => 0x0FFF0000FFFFFF00
  | .R  => 0x0FFFFFFFFFFFFF00

/-- `CMD[63:60]`, the opcode field `OPC` (R44). -/
def opcodeField (cmd : Word64) : BitVec 4 := cmd.extractLsb' 60 4

/-- `DUR`, bits 31:0 of format T (R46). -/
def durField (cmd : Word64) : Word32 := cmd.extractLsb' 0 32

/-- `MASK`, bits 31:16 of format MP (R47). -/
def maskField (cmd : Word64) : BitVec 16 := cmd.extractLsb' 16 16

/-- `PAT`, bits 15:0 of format MP (R47). -/
def patField (cmd : Word64) : BitVec 16 := cmd.extractLsb' 0 16

/-- `GID`, bits 15:0 of format G (R48). -/
def gidLowField (cmd : Word64) : GroupId := cmd.extractLsb' 0 16

/-- `GID`, bits 47:32 of formats GS and GL (R49, R51). -/
def gidHighField (cmd : Word64) : GroupId := cmd.extractLsb' 32 16

/-- `SID`, bits 31:0 of format GS (R49). -/
def sidField (cmd : Word64) : BitVec 32 := cmd.extractLsb' 0 32

/-- `EXT`, bit 32 of format XR; 1 = extended (R50). -/
def extField (cmd : Word64) : Bool := cmd.getLsbD 32

/-- `RAW`, bits 28:0 of format XR (R50). -/
def rawField (cmd : Word64) : ArbId := cmd.extractLsb' 0 29

/-- `LEN`, bits 7:0 of format GL (R51). -/
def lenField (cmd : Word64) : BitVec 8 := cmd.extractLsb' 0 8

/-- `REGNO`, bits 7:0 of format R (R52). -/
def regnoField (cmd : Word64) : BitVec 8 := cmd.extractLsb' 0 8

/-- The command, unless a reserved bit of its format is 1 (R56). -/
def ifReservedClear (f : Format) (cmd : Word64) (i : Instr) : Except FaultCause Instr :=
  if cmd &&& reservedMask f = 0 then .ok i else .error .reservedBits

/-- The decoder: the opcode first, then the reserved bits (R54 to R57, R59). -/
def decode (cmd data : Word64) : Except FaultCause Instr :=
  match (opcodeField cmd).toNat with
  | 0x0 => ifReservedClear .N cmd .nop
  | 0x1 => ifReservedClear .T cmd (.lset (durField cmd))
  | 0x2 => ifReservedClear .N cmd .lrtg
  | 0x3 => ifReservedClear .N cmd .lchk
  | 0x4 => ifReservedClear .N cmd .lqry
  | 0x5 => ifReservedClear .N cmd .fclr
  | 0x6 => ifReservedClear .MP cmd (.freg (maskField cmd) (patField cmd))
  | 0x7 => ifReservedClear .G cmd (.feval (gidLowField cmd))
  | 0x8 => ifReservedClear .N cmd .fcnt
  | 0x9 => ifReservedClear .GS cmd (.enc (gidHighField cmd) (sidField cmd))
  | 0xA => ifReservedClear .XR cmd (.dec (extField cmd) (rawField cmd))
  | 0xB => ifReservedClear .GL cmd (.send (gidHighField cmd) (lenField cmd) data)
  | 0xC => ifReservedClear .N cmd .recv
  | 0xD => ifReservedClear .R cmd (.rdreg (regnoField cmd))
  | _ => .error .illegalOpcode -- 0xE and 0xF (R55)

/-- The opcode of a command (R54). -/
def opcodeOf : Instr → BitVec 4
  | .nop => 0x0
  | .lset _ => 0x1
  | .lrtg => 0x2
  | .lchk => 0x3
  | .lqry => 0x4
  | .fclr => 0x5
  | .freg _ _ => 0x6
  | .feval _ => 0x7
  | .fcnt => 0x8
  | .enc _ _ => 0x9
  | .dec _ _ => 0xA
  | .send _ _ _ => 0xB
  | .recv => 0xC
  | .rdreg _ => 0xD

/-- The operand bits `CMD[59:0]` of a command, its reserved fields 0 (R45 to R52). -/
def operandBits : Instr → BitVec 60
  | .nop | .lrtg | .lchk | .lqry | .fclr | .fcnt | .recv => 0
  | .lset dur => 0#28 ++ dur
  | .freg mask pat => 0#28 ++ mask ++ pat
  | .feval gid => 0#44 ++ gid
  | .enc gid sid => 0#12 ++ gid ++ sid
  | .dec ext raw => 0#27 ++ BitVec.ofBool ext ++ 0#3 ++ raw
  | .send gid len _ => 0#12 ++ gid ++ 0#24 ++ len
  | .rdreg regno => 0#52 ++ regno

/-- The command word of a command. -/
def encodeCmd (i : Instr) : Word64 := opcodeOf i ++ operandBits i

/-- The data word of a command: SEND's operand, and 0 where it is ignored (R57). -/
def encodeData : Instr → Word64
  | .send _ _ data => data
  | _ => 0

/-- The encoder: the words CMD and DATA of a command. -/
def encode (i : Instr) : Word64 × Word64 := (encodeCmd i, encodeData i)

/-- The words CMD and DATA of an instruction numbered as the opcode table numbers bits: bits 63..0 are
the command word, bits 127..64 the data word, and every bit from `nbits` up is 0 (log entry 8). -/
def tableWords (nbits w : Nat) : Word64 × Word64 :=
  let v := w % 2 ^ nbits
  (BitVec.ofNat 64 v, BitVec.ofNat 64 (v / 2 ^ 64))

/-- What the decoder reads from a word of the opcode table. -/
def decodeTableWord (nbits w : Nat) : Option Instr :=
  match decode (tableWords nbits w).1 (tableWords nbits w).2 with
  | .ok i => some i
  | .error _ => none

end Sys2Proof
end

