-- ==== Sys2Proof/Config.lean ====
section
/-! DEFINITION. The implementation parameters of R5 and the free values. A constant without a body is
one the spec leaves OPEN: nothing can be proved about its value, so a claim holds for every value. -/

namespace Sys2Proof.Config

/-- The default of `FILTER_CAPACITY` (R5: "integer 1..255; default 10"). `State.reset` takes it; the
model reads the capacity from the state, so that claims hold for every capacity (log entry 3). -/
def filterCapacity : BitVec 8 := 10

/-- OPEN: `LV_RESET_TIMEOUT`, the reset value of `LV_DUR` and `LV_REM` (R5, D15; log entry 4). -/
opaque lvResetTimeout : Word32

/-- OPEN: the `NODE_ID` input at the reset that begins the run (R5, R15, D20; log entry 5). -/
opaque nodeIdInput : BitVec 16

/-- OPEN: `TICK_PERIOD`, the physical time between two ticks. No rule depends on it (R5, D13), and
nothing in the model reads it (log entry 6). -/
opaque tickPeriod : Nat

/-- FREE VALUE: `FT_MASK[slot]` after the `n`-th reset: "Reset value: unspecified" (R21, D17; log
entry 7). -/
opaque maskAfterReset (n slot : Nat) : BitVec 16

/-- FREE VALUE: `FT_PAT[slot]` after the `n`-th reset (R21, D17; log entry 7). -/
opaque patAfterReset (n slot : Nat) : BitVec 16

end Sys2Proof.Config
end

