-- ==== Sys2Proof/Machine/State.lean ====
section
/-! DEFINITION. The state record of R11 as plain data, the steps of the block's agents as data, the
reasons a step can stop, and the state after reset. -/

namespace Sys2Proof.Machine

/-- A filter slot: `FT_MASK[i]` and `FT_PAT[i]` (R21). -/
structure FilterEntry where
  mask : BitVec 16
  pat  : BitVec 16
  deriving DecidableEq, Repr

/-- A frame of the TX frame port: `id`, `ext`, `len` and `len` bytes (R26). -/
structure TxFrame where
  id    : ArbId
  ext   : Bool
  len   : BitVec 4
  bytes : List Byte
  deriving DecidableEq, Repr

/-- One step of one agent (R40, R103): what the environment of the block does next. -/
inductive Event where
  /-- The host presents a command word and a data word (R43). -/
  | command (cmd data : Word64)
  /-- The time base ticks once (R65). -/
  | tick
  /-- The transport delivers a frame: extended flag, id, byte count and the first bytes (R84). -/
  | deliver (ext : Bool) (id : ArbId) (n : BitVec 8) (bytes : Payload)
  /-- The reset agent resets the block with this `NODE_ID` input (R106). -/
  | reset (nodeIdIn : BitVec 16)
  deriving DecidableEq, Repr

/-- The state: the record of R11, then what the model adds around it (`filterCapacity` and below). -/
structure State where
  /-- `NODE_ID` (R15). -/
  nodeId   : BitVec 16
  /-- `LV_DUR` (R16). -/
  lvDur    : Word32
  /-- `LV_REM` (R17). -/
  lvRem    : Word32
  /-- `LV_ALIVE`: true = ALIVE, false = DEAD (R18). -/
  lvAlive  : Bool
  /-- `FT_COUNT` (R20). -/
  ftCount  : BitVec 8
  /-- `FT_MASK[i]`, `FT_PAT[i]` for i below the capacity (R21). -/
  ftSlots  : List FilterEntry
  /-- `FAULT.FAULTED` (R23). -/
  faulted  : Bool
  /-- `FAULT.CAUSE` (R23). -/
  cause    : BitVec 8
  /-- `FAULT.FOPC` (R23). -/
  fopc     : BitVec 4
  /-- `RXF_GID` (R24). -/
  rxfGid   : GroupId
  /-- `RXF_SID` (R24). -/
  rxfSid   : BitVec 18
  /-- `RXF_LEN` (R24). -/
  rxfLen   : BitVec 4
  /-- `RXF_DATA[0..7]` (R24). -/
  rxfData  : Payload
  /-- `RX_PEND` (R25). -/
  rxPend   : Bool
  /-- `RX_EXT` (R25). -/
  rxExt    : Bool
  /-- `RX_ID` (R25). -/
  rxId     : ArbId
  /-- `RX_LEN` (R25). -/
  rxLen    : BitVec 8
  /-- `RX_DATA[0..7]` (R25). -/
  rxData   : Payload
  /-- `TX`, oldest frame first (R26). -/
  tx       : List TxFrame
  /-- The parameter `FILTER_CAPACITY` (R5), which no step writes (log entry 3). -/
  filterCapacity : BitVec 8
  /-- The steps the agents take next, oldest first (R40; log entry 1). -/
  pending   : List Event
  /-- The response words given so far, oldest first (R43; log entry 2). -/
  responses : List Word64
  /-- The index of the host's next command (R14; log entry 9). -/
  hostPos   : Nat
  /-- How many resets the run has had after the one that began it: the index of the free values of
  the filter slots (log entry 7). -/
  resets    : Nat
  deriving DecidableEq, Repr

/-- Why the machine stops with a fault: never. Every fault of the spec has a described entry (R95) and
is a next state with the fault register written, so this type has no constructor (log entry 10). -/
inductive Fault where
  deriving DecidableEq, Repr

/-- Why a step has no meaning. -/
inductive Refusal where
  /-- An instruction without a meaning; no arm of `exec` raises it. Safe: it stops. -/
  | notModelled (mnemonic : String)
  /-- Raised by the transport's delivery step while `RX_PEND` is 1: the spec gives that step no
  behaviour ("the model has no step for it", 93 entry I13, R84). Safe: it stops (log entry 11). -/
  | deliveryIntoFullLatch
  deriving DecidableEq, Repr

/-- The contents the filter slots have after the `n`-th reset: free values (R21; log entry 7). -/
def slotsAfterReset (capacity : BitVec 8) (n : Nat) : List FilterEntry :=
  (List.range capacity.toNat).map fun i =>
    ⟨Config.maskAfterReset n i, Config.patAfterReset n i⟩

/-- The machine right after the reset that begins a run (R106, R107), with no agent's step pending. -/
def State.reset : State where
  nodeId   := Config.nodeIdInput
  lvDur    := Config.lvResetTimeout
  lvRem    := Config.lvResetTimeout
  lvAlive  := true
  ftCount  := 0
  ftSlots  := slotsAfterReset Config.filterCapacity 0
  faulted  := false
  cause    := 0
  fopc     := 0
  rxfGid   := 0
  rxfSid   := 0
  rxfLen   := 0
  rxfData  := Vector.replicate 8 0
  rxPend   := false
  rxExt    := false
  rxId     := 0
  rxLen    := 0
  rxData   := Vector.replicate 8 0
  tx       := []
  filterCapacity := Config.filterCapacity
  pending   := []
  responses := []
  hostPos   := 0
  resets    := 0

end Sys2Proof.Machine
end

