-- ==== Sys2Proof/Machine/Flags.lean ====
section
/-! DEFINITION. The status flag `LV_ALIVE` at a check and the result bits that exist only in response
words (R27). -/

namespace Sys2Proof.Machine

/-- The timer's "expired" predicate: `LV_REM == 0` (R71). -/
def expired (s : State) : Bool := s.lvRem == 0

/-- What a check makes of `LV_ALIVE`: DEAD when expired, otherwise unchanged (R68). -/
def aliveAfterCheck (s : State) : Bool := if expired s then false else s.lvAlive

/-- ACCEPTED of FREG: the table has a free slot (R74). -/
def tableHasRoom (s : State) : Bool := decide (s.ftCount.toNat < s.filterCapacity.toNat)

/-- NONEMPTY of FREG: the count after the command is not 0 (R74). -/
def nonempty (newCount : BitVec 8) : Bool := newCount != 0

/-- KIND of RECV for a frame taken: 1 MATCH, 2 NO_MATCH (R58, R87). -/
def recvKind (matched : Bool) : BitVec 2 := if matched then 1 else 2

end Sys2Proof.Machine
end

