-- ==== Sys2Proof/Machine/Operands.lean ====
section
/-! DEFINITION. Payload operands: their byte order, their cap at eight bytes, and the bytes that SEND
transmits, that a delivery latches and that RECV captures. -/

namespace Sys2Proof.Machine

/-- The payload buffer whose byte k is `f k`. -/
def payloadOf (f : Nat → Byte) : Payload :=
  #v[f 0, f 1, f 2, f 3, f 4, f 5, f 6, f 7]

/-- Byte k of a payload buffer, for k = 0..7 (0 beyond it). -/
def payloadByte (p : Payload) (k : Nat) : Byte := p[k]?.getD 0

/-- Payload byte k of the SEND data word: `DATA[8k+7:8k]` (R34, R51). -/
def dataByte (data : Word64) (k : Nat) : Byte := data.extractLsb' (8 * k) 8

/-- `payload_cap(n) = min(n, 8)` (R80), as the 4-bit length registers hold it. -/
def payloadCap (n : BitVec 8) : BitVec 4 :=
  if n.toNat < 8 then n.setWidth 4 else 8

/-- The first `payload_cap(len)` bytes of the data word, in order (R33, R80, R86). -/
def sendBytes (data : Word64) (len : BitVec 8) : List Byte :=
  (List.range (payloadCap len).toNat).map (dataByte data)

/-- The buffer's first `n` bytes, and 0 in the bytes from `n` on (R84, R87). -/
def firstBytes (p : Payload) (n : Nat) : Payload :=
  payloadOf fun k => if k < n then payloadByte p k else 0

/-- Bytes `k`..`k+3` of a buffer as one 32-bit value, byte `k` lowest (R28, R34). -/
def packWord32 (p : Payload) (k : Nat) : Word32 :=
  payloadByte p (k + 3) ++ payloadByte p (k + 2) ++ payloadByte p (k + 1) ++ payloadByte p k

/-- All eight bytes of a buffer as a data word, byte 0 lowest (R34, R61). -/
def packWord64 (p : Payload) : Word64 := packWord32 p 4 ++ packWord32 p 0

end Sys2Proof.Machine
end

