-- ==== Sys2Proof/Machine/Response.lean ====
section
/-! DEFINITION. The response words of R58: STATUS in bits 63:60, the result fields of each command, and 0
in every other bit. -/

namespace Sys2Proof.Machine

/-- STATUS FAULT with the cause this command raised (R58, R95). -/
def faultResponse (cause : BitVec 8) : Word64 := 0x1#4 ++ 0#52 ++ cause

/-- STATUS HALTED with the recorded first cause (R58, R96). -/
def haltedResponse (cause : BitVec 8) : Word64 := 0x2#4 ++ 0#52 ++ cause

/-- STATUS OK with no result field: NOP, LSET, LRTG, FCLR. -/
def okResponse : Word64 := 0

/-- LCHK, LQRY: [0] ALIVE. -/
def aliveResponse (alive : Bool) : Word64 := 0#63 ++ BitVec.ofBool alive

/-- FREG: [0] NONEMPTY, [1] ACCEPTED, [15:8] COUNT. -/
def fregResponse (nonempty accepted : Bool) (count : BitVec 8) : Word64 :=
  0#48 ++ count ++ 0#6 ++ BitVec.ofBool accepted ++ BitVec.ofBool nonempty

/-- FEVAL: [16] MATCH, [15:0] VALUE. -/
def fevalResponse (matched : Bool) (value : GroupId) : Word64 :=
  0#47 ++ BitVec.ofBool matched ++ value

/-- FCNT: [7:0] COUNT. -/
def fcntResponse (count : BitVec 8) : Word64 := 0#56 ++ count

/-- ENC: [28:0] RAW. -/
def encResponse (raw : ArbId) : Word64 := 0#35 ++ raw

/-- DEC: [47:32] GID, [17:0] SID. -/
def decResponse (gid : GroupId) (sid : BitVec 18) : Word64 := 0#16 ++ gid ++ 0#14 ++ sid

/-- SEND: [0] RESULT, always 1; [11:8] TXLEN; [44:16] TXID. -/
def sendResponse (len : BitVec 4) (id : ArbId) : Word64 :=
  0#19 ++ id ++ 0#4 ++ len ++ 0#7 ++ 1#1

/-- RECV: [57:56] KIND, [15:0] VALUE. -/
def recvResponse (kind : BitVec 2) (value : GroupId) : Word64 :=
  0#6 ++ kind ++ 0#40 ++ value

/-- RDREG: [31:0] VALUE. -/
def rdregResponse (value : Word32) : Word64 := 0#32 ++ value

end Sys2Proof.Machine
end

