-- ==== Sys2Proof/Machine/Ops.lean ====
section
/-! DEFINITION. The named operations over the state: completing a command, taking a fault, the halted
state, the register-number space, and the writes that several commands share. The block has no memory
(R30), so there is no memory operation. -/

namespace Sys2Proof.Machine

/-- The outcome of a step of the block. -/
abbrev Result := Host.Outcome State Fault Refusal

/-- The code of a fault cause (R93). -/
def causeCode : FaultCause → BitVec 8
  | .illegalOpcode => 0x01
  | .reservedBits  => 0x02
  | .stdIdRange    => 0x03
  | .illegalRegno  => 0x04

/-- Gives one response word to the host (R43). -/
def respond (r : Word64) (s : State) : State := { s with responses := s.responses ++ [r] }

/-- A command completes: the next state with its writes, and its response (R10). -/
def complete (r : Word64) (s : State) : Result := .next (respond r s)

/-- The writes of fault entry: the first cause and opcode are kept (R95, R97). -/
def recordFault (c : FaultCause) (opc : BitVec 4) (s : State) : State :=
  if s.faulted then s else { s with faulted := true, cause := causeCode c, fopc := opc }

/-- Fault entry, `raise Fault(c)` in a command with opcode `opc`. It is applied to the state before the
command, so every other write of the command is discarded (R95). There is no return from a fault: only
reset clears it (R97). -/
def raiseFault (c : FaultCause) (opc : BitVec 4) (s : State) : Result :=
  complete (faultResponse (causeCode c)) (recordFault c opc s)

/-- The opcodes that execute while the block is halted: NOP and RDREG (R59, R96). -/
def runsWhileHalted (opc : BitVec 4) : Bool := opc == 0x0 || opc == 0xD

/-- The first check of every command: HALTED while the block is faulted (R59, R94, R96). -/
def unlessHalted (opc : BitVec 4) (s : State) (run : Result) : Result :=
  if s.faulted && !runsWhileHalted opc then complete (haltedResponse s.cause) s else run

/-- A command word that does not decode: HALTED if the block is halted, otherwise the fault (R59). -/
def rejectCommand (c : FaultCause) (cmd : Word64) (s : State) : Result :=
  unlessHalted (opcodeField cmd) s (raiseFault c (opcodeField cmd) s)

/-- The value of a register number, or none for an unassigned number (R28). -/
def readRegister (regno : BitVec 8) (s : State) : Option Word32 :=
  match regno.toNat with
  | 0x00 => some (s.nodeId.setWidth 32)
  | 0x01 => some (s.ftCount.setWidth 32)
  | 0x02 => some (s.filterCapacity.setWidth 32)
  | 0x03 => some s.lvDur
  | 0x04 => some s.lvRem
  | 0x05 => some (0#31 ++ BitVec.ofBool s.lvAlive)
  | 0x06 => some (0#12 ++ s.fopc ++ s.cause ++ 0#7 ++ BitVec.ofBool s.faulted)
  | 0x07 => some (s.rxfGid.setWidth 32)
  | 0x08 => some (s.rxfSid.setWidth 32)
  | 0x09 => some (s.rxfLen.setWidth 32)
  | 0x0A => some (packWord32 s.rxfData 0)
  | 0x0B => some (packWord32 s.rxfData 4)
  | _ => none

/-- Arms the countdown for `dur` ticks and makes the link ALIVE: LSET's re-arm and the retrigger of LRTG
and RECV (R66, R67, R87). -/
def arm (dur : Word32) (s : State) : State := { s with lvRem := dur, lvAlive := true }

/-- The check's write of `LV_ALIVE` (R68). -/
def applyCheck (s : State) : State := { s with lvAlive := aliveAfterCheck s }

/-- Stores an entry in slot `FT_COUNT` and counts it (R74). -/
def storeFilter (e : FilterEntry) (s : State) : State :=
  { s with ftSlots := s.ftSlots.set s.ftCount.toNat e, ftCount := s.ftCount + 1 }

/-- `emit`: appends one frame to the TX frame port (R26). -/
def emitFrame (f : TxFrame) (s : State) : State := { s with tx := s.tx ++ [f] }

/-- Moves the latched frame into the received-frame registers and empties the latch (R87). -/
def takeFrame (gid : GroupId) (sid : BitVec 18) (s : State) : State :=
  { s with
    rxfGid := gid, rxfSid := sid, rxfLen := payloadCap s.rxLen,
    rxfData := firstBytes s.rxData (payloadCap s.rxLen).toNat, rxPend := false }

end Sys2Proof.Machine
end

