-- ==== Sys2Proof/Machine/Agents.lean ====
section
/-! DEFINITION. The steps of the agents other than the host (R103): the time base, the transport and
reset; and how a step is taken from the agents' pending steps. -/

namespace Sys2Proof.Machine

/-- TICK: `LV_REM <- sat_sub(LV_REM, 1)`, halted or not (R65, R96). -/
def tick (s : State) : State :=
  { s with lvRem := if s.lvRem = 0 then 0 else s.lvRem - 1 }

/-- DELIVER: fills the empty RX latch; there is no such step while a frame is pending (R84). -/
def deliver (ext : Bool) (id : ArbId) (n : BitVec 8) (bytes : Payload) (s : State) : Result :=
  if s.rxPend then .refused .deliveryIntoFullLatch
  else .next
    { s with
      rxPend := true, rxExt := ext, rxId := id, rxLen := n,
      rxData := firstBytes bytes (payloadCap n).toNat }

/-- The reset step: every field of R11 at its reset value, with this `NODE_ID` input (R107). The model's
own fields stay: the capacity, the pending steps, the responses given and the host's position. -/
def resetBlock (nodeIdIn : BitVec 16) (s : State) : State :=
  { s with
    nodeId  := nodeIdIn,
    lvDur   := Config.lvResetTimeout,
    lvRem   := Config.lvResetTimeout,
    lvAlive := true,
    ftCount := 0,
    ftSlots := slotsAfterReset s.filterCapacity (s.resets + 1),
    faulted := false, cause := 0, fopc := 0,
    rxfGid  := 0, rxfSid := 0, rxfLen := 0, rxfData := Vector.replicate 8 0,
    rxPend  := false, rxExt := false, rxId := 0, rxLen := 0, rxData := Vector.replicate 8 0,
    tx      := [],
    resets  := s.resets + 1 }

/-- The state without its first pending step, which is being taken. -/
def dropPending (s : State) : State := { s with pending := s.pending.tail }

/-- The host's position moves past the command being executed, whatever its outcome (R14). -/
def advanceHost (s : State) : State := { s with hostPos := s.hostPos + 1 }

end Sys2Proof.Machine
end

