-- ==== Sys2Proof/Machine/Liveness.lean ====
section
/-! DEFINITION. The liveness countdown timer: LSET, LRTG, LCHK, LQRY (R66 to R69). -/

namespace Sys2Proof.Machine

/-- LSET: set the timeout and re-arm (R66). -/
def execLset (dur : Word32) (s : State) : Result :=
  unlessHalted 0x1 s (complete okResponse (arm dur { s with lvDur := dur }))

/-- LRTG: retrigger (R67). -/
def execLrtg (s : State) : Result :=
  unlessHalted 0x2 s (complete okResponse (arm s.lvDur s))

/-- LCHK: check, which updates the stored state (R68). -/
def execLchk (s : State) : Result :=
  unlessHalted 0x3 s (complete (aliveResponse (aliveAfterCheck s)) (applyCheck s))

/-- LQRY: the last-computed state, without a check (R69). -/
def execLqry (s : State) : Result :=
  unlessHalted 0x4 s (complete (aliveResponse s.lvAlive) s)

end Sys2Proof.Machine
end

