-- ==== Sys2Proof/Machine/Codec.lean ====
section
/-! DEFINITION. The frame codec: pack and unpack of arbitration ids, and ENC, DEC (R78 to R82). -/

namespace Sys2Proof.Machine

/-- `codec_encode`: `(g << 18) | s` at 32 bits, of which bits 28:0 are kept; nothing is masked or
validated (R78). -/
def codecEncode (g : GroupId) (s : BitVec 32) : ArbId :=
  ((g.setWidth 32 <<< 18) ||| s).setWidth 29

/-- `codec_decode`: group-id and sender identity, or none for a standard id of more than 11 bits, which
faults STD_ID_RANGE (R79). -/
def codecDecode (ext : Bool) (raw : ArbId) : Option (GroupId × BitVec 18) :=
  if ext then some ((raw.extractLsb' 18 11).setWidth 16, raw.extractLsb' 0 18)
  else if raw.toNat < 0x800 then some ((raw.extractLsb' 0 11).setWidth 16, 0)
  else none

/-- ENC: pack an arbitration id (R81). -/
def execEnc (gid : GroupId) (sid : BitVec 32) (s : State) : Result :=
  unlessHalted 0x9 s (complete (encResponse (codecEncode gid sid)) s)

/-- DEC: unpack an arbitration id (R82). -/
def execDec (ext : Bool) (raw : ArbId) (s : State) : Result :=
  unlessHalted 0xA s
    (match codecDecode ext raw with
    | some (g, sid) => complete (decResponse g sid) s
    | none => raiseFault .stdIdRange 0xA s)

end Sys2Proof.Machine
end

