-- ==== Sys2Proof/Machine/Filter.lean ====
section
/-! DEFINITION. The filter-table match engine: `filter_eval` and FCLR, FREG, FEVAL, FCNT (R72 to R76). -/

namespace Sys2Proof.Machine

/-- An entry matches a group-id: 16-bit AND, 16-bit compare (R72). -/
def entryMatches (g : GroupId) (e : FilterEntry) : Bool := g &&& e.mask == e.pat

/-- The scan in registration order: the pattern of the first entry that matches (R72). -/
def firstMatch (g : GroupId) : List FilterEntry → Bool × GroupId
  | [] => (false, 0)
  | e :: rest => if entryMatches g e then (true, e.pat) else firstMatch g rest

/-- The valid entries: slots 0 to `FT_COUNT - 1` (R21). -/
def validEntries (s : State) : List FilterEntry := s.ftSlots.take s.ftCount.toNat

/-- The match function `filter_eval` (R72). -/
def filterEval (s : State) (g : GroupId) : Bool × GroupId :=
  if s.ftCount = 0 then (true, g) else firstMatch g (validEntries s)

/-- FCLR: empty the table; the slots keep their contents (R73). -/
def execFclr (s : State) : Result :=
  unlessHalted 0x5 s (complete okResponse { s with ftCount := 0 })

/-- FREG: register an entry, or drop it silently when the table is full (R74). -/
def execFreg (mask pat : BitVec 16) (s : State) : Result :=
  unlessHalted 0x6 s
    (if tableHasRoom s then
      complete (fregResponse (nonempty (s.ftCount + 1)) true (s.ftCount + 1))
        (storeFilter ⟨mask, pat⟩ s)
    else complete (fregResponse (nonempty s.ftCount) false s.ftCount) s)

/-- FEVAL: evaluate a group-id (R75). -/
def execFeval (gid : GroupId) (s : State) : Result :=
  unlessHalted 0x7 s (complete (fevalResponse (filterEval s gid).1 (filterEval s gid).2) s)

/-- FCNT: the entry count (R76). -/
def execFcnt (s : State) : Result :=
  unlessHalted 0x8 s (complete (fcntResponse s.ftCount) s)

end Sys2Proof.Machine
end

