-- ==== Sys2Proof/Machine/Session.lean ====
section
/-! DEFINITION. The session sequencer: SEND and RECV (R86, R87). -/

namespace Sys2Proof.Machine

/-- The frame SEND hands to the transport: always extended, from this node, at most 8 bytes (R86). -/
def sendFrame (gid : GroupId) (len : BitVec 8) (data : Word64) (s : State) : TxFrame where
  id    := codecEncode gid (s.nodeId.setWidth 32)
  ext   := true
  len   := payloadCap len
  bytes := sendBytes data len

/-- SEND: encode and transmit one frame, on a dead link too (R86). -/
def execSend (gid : GroupId) (len : BitVec 8) (data : Word64) (s : State) : Result :=
  unlessHalted 0xB s
    (complete (sendResponse (payloadCap len) (codecEncode gid (s.nodeId.setWidth 32)))
      (emitFrame (sendFrame gid len data s) s))

/-- RECV: one receive poll. The check comes first; a pending frame is decoded, retriggers the countdown,
fills the received-frame registers and is evaluated by the filter (R87). -/
def execRecv (s : State) : Result :=
  unlessHalted 0xC s
    (if s.rxPend then
      match codecDecode s.rxExt s.rxId with
      | some (g, sid) =>
        complete (recvResponse (recvKind (filterEval s g).1) (filterEval s g).2)
          (takeFrame g sid (arm s.lvDur (applyCheck s)))
      | none => raiseFault .stdIdRange 0xC s
    else complete (recvResponse 0 0) (applyCheck s))

end Sys2Proof.Machine
end

