-- ==== Sys2Proof/Machine/System.lean ====
section
/-! DEFINITION. The system commands: NOP and RDREG (R90, R91). Both run while the block is halted. -/

namespace Sys2Proof.Machine

/-- NOP: no operation (R90). -/
def execNop (s : State) : Result :=
  unlessHalted 0x0 s (complete okResponse s)

/-- RDREG: read a state register by number; an unassigned number faults (R91). -/
def execRdreg (regno : BitVec 8) (s : State) : Result :=
  unlessHalted 0xD s
    (match readRegister regno s with
    | some v => complete (rdregResponse v) s
    | none => raiseFault .illegalRegno 0xD s)

end Sys2Proof.Machine
end

