-- ==== Sys2Proof/Machine/Dispatch.lean ====
section
/-! DEFINITION. One arm per command of the opcode map (R54), each a direct call of its meaning. -/

namespace Sys2Proof.Machine

/-- Executes a command on the state before it (R59). -/
def exec (i : Instr) (s : State) : Host.Outcome State Fault Refusal :=
  match i with
  | .nop => Sys2Proof.Machine.execNop s
  | .lset dur => Sys2Proof.Machine.execLset dur s
  | .lrtg => Sys2Proof.Machine.execLrtg s
  | .lchk => Sys2Proof.Machine.execLchk s
  | .lqry => Sys2Proof.Machine.execLqry s
  | .fclr => Sys2Proof.Machine.execFclr s
  | .freg mask pat => Sys2Proof.Machine.execFreg mask pat s
  | .feval gid => Sys2Proof.Machine.execFeval gid s
  | .fcnt => Sys2Proof.Machine.execFcnt s
  | .enc gid sid => Sys2Proof.Machine.execEnc gid sid s
  | .dec ext raw => Sys2Proof.Machine.execDec ext raw s
  | .send gid len data => Sys2Proof.Machine.execSend gid len data s
  | .recv => Sys2Proof.Machine.execRecv s
  | .rdreg regno => Sys2Proof.Machine.execRdreg regno s

end Sys2Proof.Machine
end

