-- ==== Sys2Proof/Machine/Step.lean ====
section
/-! DEFINITION. One step of the block: the next pending step of an agent, taken atomically (R38, R40). -/

namespace Sys2Proof.Machine

/-- The step a host command makes (R59), its transaction already accepted. -/
def stepCommand (cmd data : Word64) (s : State) : Result :=
  match decode cmd data with
  | .ok i => exec i s
  | .error c => rejectCommand c cmd s

/-- One step of the machine. With no step pending it waits, unchanged (log entry 1). -/
def step (s : State) : Host.Outcome State Fault Refusal :=
  match s.pending with
  | [] => .next s
  | .command cmd data :: _ => stepCommand cmd data (advanceHost (dropPending s))
  | .tick :: _ => .next (tick (dropPending s))
  | .deliver ext id n bytes :: _ => deliver ext id n bytes (dropPending s)
  | .reset nodeIdIn :: _ => .next (resetBlock nodeIdIn (dropPending s))

/-- The state with one more agent step, to be taken before the others that are pending. -/
def State.withNext (s : State) (e : Event) : State := { s with pending := e :: s.pending }

/-- The state in which the host's next transaction is this instruction of the opcode table (R43; log
entry 8). -/
def State.withFetchWord (s : State) (nbits w : Nat) : State :=
  s.withNext (.command (tableWords nbits w).1 (tableWords nbits w).2)

end Sys2Proof.Machine
end

