-- ==== Sys2Proof/Machine/Assembler.lean ====
section
/-! DEFINITION. The assembler of R61, its pseudo-instructions (R62) and the harness directives (R64): from
a line of text to the steps of agents it stands for. -/

namespace Sys2Proof.Machine

/-- A source line with its operands as numbers, before they are checked against their fields. -/
inductive SourceLine where
  /-- An empty line or a comment. -/
  | blank
  | nop | lrtg | lchk | lqry | fclr | fcnt | recv
  | lset (dur : Nat)
  | freg (mask pat : Nat)
  | feval (gid : Nat)
  | enc (gid sid : Nat)
  | dec (ext : Bool) (raw : Nat)
  | send (gid : Nat) (bytes : List Nat)
  | rdreg (regno : Nat)
  /-- Pseudo-instruction FPASS (R62). -/
  | fpass
  /-- Pseudo-instruction FONLY (R62). -/
  | fonly (mask pat : Nat)
  /-- Pseudo-instruction FEXACT (R62). -/
  | fexact (gid : Nat)
  /-- RAW: a command word that the assembler cannot write otherwise (95, opening). -/
  | raw (cmd : Nat)
  /-- @reset (R64). -/
  | resetDirective (id : Nat)
  /-- @tick (R64, D38). -/
  | tickDirective (n : Nat)
  /-- @rx (R64). -/
  | rxDirective (ext : Bool) (id : Nat) (bytes : List Nat)
  deriving DecidableEq, Repr

/-- A payload list that LEN can count and whose entries are bytes (R51, R61). -/
def bytesFit (bytes : List Nat) : Bool :=
  decide (bytes.length ≤ 255) && bytes.all fun b => decide (b < 2 ^ 8)

/-- Every operand fits its field; otherwise the line is an assembly error (R61). -/
def operandsFit : SourceLine → Bool
  | .blank | .nop | .lrtg | .lchk | .lqry | .fclr | .fcnt | .recv | .fpass => true
  | .lset dur => decide (dur < 2 ^ 32)
  | .freg mask pat => decide (mask < 2 ^ 16) && decide (pat < 2 ^ 16)
  | .feval gid => decide (gid < 2 ^ 16)
  | .enc gid sid => decide (gid < 2 ^ 16) && decide (sid < 2 ^ 32)
  | .dec _ raw => decide (raw < 2 ^ 29)
  | .send gid bytes => decide (gid < 2 ^ 16) && bytesFit bytes
  | .rdreg regno => decide (regno < 2 ^ 8)
  | .fonly mask pat => decide (mask < 2 ^ 16) && decide (pat < 2 ^ 16)
  | .fexact gid => decide (gid < 2 ^ 16)
  | .raw cmd => decide (cmd < 2 ^ 64)
  | .resetDirective id => decide (id < 2 ^ 16)
  | .tickDirective _ => true
  | .rxDirective _ id bytes => decide (id < 2 ^ 29) && bytesFit bytes

/-- The first eight bytes of a payload list, 0 where the list has none (R61, R64). -/
def listPayload (bytes : List Nat) : Payload :=
  payloadOf fun k => BitVec.ofNat 8 (bytes.getD k 0)

/-- The transaction that presents a command (R43). -/
def commandEvent (i : Instr) : Event := .command (encode i).1 (encode i).2

/-- The agents' steps a source line stands for (R61, R62, R64). -/
def lineEvents : SourceLine → List Event
  | .blank => []
  | .nop => [commandEvent .nop]
  | .lrtg => [commandEvent .lrtg]
  | .lchk => [commandEvent .lchk]
  | .lqry => [commandEvent .lqry]
  | .fclr => [commandEvent .fclr]
  | .fcnt => [commandEvent .fcnt]
  | .recv => [commandEvent .recv]
  | .lset dur => [commandEvent (.lset (BitVec.ofNat 32 dur))]
  | .freg mask pat => [commandEvent (.freg (BitVec.ofNat 16 mask) (BitVec.ofNat 16 pat))]
  | .feval gid => [commandEvent (.feval (BitVec.ofNat 16 gid))]
  | .enc gid sid => [commandEvent (.enc (BitVec.ofNat 16 gid) (BitVec.ofNat 32 sid))]
  | .dec ext raw => [commandEvent (.dec ext (BitVec.ofNat 29 raw))]
  | .send gid bytes =>
    [commandEvent (.send (BitVec.ofNat 16 gid) (BitVec.ofNat 8 bytes.length)
      (packWord64 (listPayload bytes)))]
  | .rdreg regno => [commandEvent (.rdreg (BitVec.ofNat 8 regno))]
  | .fpass => [commandEvent .fclr]
  | .fonly mask pat =>
    [commandEvent .fclr, commandEvent (.freg (BitVec.ofNat 16 mask) (BitVec.ofNat 16 pat))]
  | .fexact gid => [commandEvent (.freg 0xFFFF (BitVec.ofNat 16 gid))]
  | .raw cmd => [.command (BitVec.ofNat 64 cmd) 0]
  | .resetDirective id => [.reset (BitVec.ofNat 16 id)]
  | .tickDirective n => List.replicate n .tick
  | .rxDirective ext id bytes =>
    [.deliver ext (BitVec.ofNat 29 id) (BitVec.ofNat 8 bytes.length) (listPayload bytes)]

/-- Assembles a line; an operand that does not fit is refused, never truncated (R61). -/
def assembleLine (l : SourceLine) : Option (List Event) :=
  if operandsFit l then some (lineEvents l) else none

/-- A token of a source line. -/
inductive Token where
  | word (letters : List Char)
  | number (n : Nat)
  | comma
  | leftBracket
  | rightBracket
  deriving DecidableEq, Repr

/-- The characters of mnemonics, register names, directives and numbers. -/
def isWordChar (c : Char) : Bool := c.isAlphanum || c == '_' || c == '@'

/-- The value of a decimal or hexadecimal digit below `base`. -/
def digitValue (base : Nat) (c : Char) : Option Nat :=
  let v :=
    if c.isDigit then c.toNat - '0'.toNat
    else if 'a' ≤ c && c ≤ 'f' then c.toNat - 'a'.toNat + 10
    else if 'A' ≤ c && c ≤ 'F' then c.toNat - 'A'.toNat + 10
    else base
  if v < base then some v else none

/-- The value of a digit string in a base, after the digits already read. -/
def digitsValue (base : Nat) : Nat → List Char → Option Nat
  | acc, [] => some acc
  | acc, c :: cs =>
    match digitValue base c with
    | some d => digitsValue base (acc * base + d) cs
    | none => none

/-- A number: decimal, or hexadecimal with `0x` (R61). -/
def numberValue : List Char → Option Nat
  | '0' :: 'x' :: d :: ds => digitsValue 16 0 (d :: ds)
  | ds => digitsValue 10 0 ds

/-- The token of a run of word characters: a number if it starts with a digit. -/
def wordToken : List Char → Option Token
  | [] => none
  | c :: cs =>
    if c.isDigit then (numberValue (c :: cs)).map .number else some (.word (c :: cs))

/-- Puts the word read so far (its letters reversed), if there is one, before the later tokens. -/
def endWord (reversed : List Char) (later : Option (List Token)) : Option (List Token) :=
  match reversed, later with
  | [], ts => ts
  | _, none => none
  | w, some ts => (wordToken w.reverse).map (· :: ts)

/-- The tokens of a line; `#` starts a comment (R61). -/
def lexLine : List Char → List Char → Option (List Token)
  | reversed, [] => endWord reversed (some [])
  | reversed, c :: cs =>
    if c == '#' then endWord reversed (some [])
    else if isWordChar c then lexLine (c :: reversed) cs
    else if c == ' ' || c == '\t' || c == '\r' then endWord reversed (lexLine [] cs)
    else if c == ',' then endWord reversed ((lexLine [] cs).map (.comma :: ·))
    else if c == '[' then endWord reversed ((lexLine [] cs).map (.leftBracket :: ·))
    else if c == ']' then endWord reversed ((lexLine [] cs).map (.rightBracket :: ·))
    else none

/-- The register names that RDREG accepts (R28, R61). -/
def registerNames : List (List Char × Nat) :=
  [ ("NODE_ID".toList, 0x00), ("FT_COUNT".toList, 0x01), ("FT_CAP".toList, 0x02),
    ("LV_DUR".toList, 0x03), ("LV_REM".toList, 0x04), ("LV_STATE".toList, 0x05),
    ("FAULT".toList, 0x06), ("RXF_GID".toList, 0x07), ("RXF_SID".toList, 0x08),
    ("RXF_LEN".toList, 0x09), ("RXF_DATA0".toList, 0x0A), ("RXF_DATA1".toList, 0x0B) ]

/-- The rest of a payload list, after one of its bytes. -/
def moreBytes : List Token → Option (List Nat)
  | [.rightBracket] => some []
  | .comma :: .number b :: rest => (moreBytes rest).map (b :: ·)
  | _ => none

/-- A payload list `[b0, b1, ...]`, possibly empty (R61). -/
def payloadList : List Token → Option (List Nat)
  | [.leftBracket, .rightBracket] => some []
  | .leftBracket :: .number b :: rest => (moreBytes rest).map (b :: ·)
  | _ => none

/-- The extended flag as DEC and @rx write it: EXT or STD (R61, R64). -/
def extWord (w : List Char) : Option Bool :=
  if w = "EXT".toList then some true else if w = "STD".toList then some false else none

/-- A line of a mnemonic alone. -/
def noOperand (l : SourceLine) : List Token → Option SourceLine
  | [] => some l
  | _ => none

/-- A line of a mnemonic and one number. -/
def oneOperand (f : Nat → SourceLine) : List Token → Option SourceLine
  | [.number a] => some (f a)
  | _ => none

/-- A line of a mnemonic and two numbers. -/
def twoOperands (f : Nat → Nat → SourceLine) : List Token → Option SourceLine
  | [.number a, .comma, .number b] => some (f a b)
  | _ => none

/-- RDREG's operand: a number or a register name (R61). -/
def registerOperand : List Token → Option SourceLine
  | [.number r] => some (.rdreg r)
  | [.word w] => (registerNames.lookup w).map .rdreg
  | _ => none

/-- DEC's operands (R61). -/
def decOperands : List Token → Option SourceLine
  | [.word w, .comma, .number raw] => (extWord w).map fun ext => .dec ext raw
  | _ => none

/-- SEND's operands (R61). -/
def sendOperands : List Token → Option SourceLine
  | .number gid :: .comma :: rest => (payloadList rest).map (.send gid)
  | _ => none

/-- The operands of @rx (R64). -/
def rxOperands : List Token → Option SourceLine
  | .word w :: .comma :: .number id :: .comma :: rest =>
    match extWord w, payloadList rest with
    | some ext, some bytes => some (.rxDirective ext id bytes)
    | _, _ => none
  | _ => none

/-- The operand form of each mnemonic and directive (R61, R62, R64). -/
def lineForms : List (List Char × (List Token → Option SourceLine)) :=
  [ ("NOP".toList, noOperand .nop), ("LSET".toList, oneOperand .lset),
    ("LRTG".toList, noOperand .lrtg), ("LCHK".toList, noOperand .lchk),
    ("LQRY".toList, noOperand .lqry), ("FCLR".toList, noOperand .fclr),
    ("FREG".toList, twoOperands .freg), ("FEVAL".toList, oneOperand .feval),
    ("FCNT".toList, noOperand .fcnt), ("ENC".toList, twoOperands .enc),
    ("DEC".toList, decOperands), ("SEND".toList, sendOperands),
    ("RECV".toList, noOperand .recv), ("RDREG".toList, registerOperand),
    ("FPASS".toList, noOperand .fpass), ("FONLY".toList, twoOperands .fonly),
    ("FEXACT".toList, oneOperand .fexact), ("RAW".toList, oneOperand .raw),
    ("@reset".toList, oneOperand .resetDirective), ("@tick".toList, oneOperand .tickDirective),
    ("@rx".toList, rxOperands) ]

/-- Parses the tokens of one line: a mnemonic, then its operands (R61). -/
def parseLine : List Token → Option SourceLine
  | [] => some .blank
  | .word m :: operands =>
    match lineForms.lookup m with
    | some form => form operands
    | none => none
  | _ => none

/-- Assembles one line of text, or refuses it (R61). -/
def assembleText (line : List Char) : Option (List Event) :=
  ((lexLine [] line).bind parseLine).bind assembleLine

/-- Assembles a program, one command per line; one refused line refuses it (R61). The second argument is
the current line, its characters reversed. -/
def assembleLines : List Char → List Char → Option (List Event)
  | [], line => assembleText line.reverse
  | c :: cs, line =>
    if c == '\n' then
      match assembleText line.reverse, assembleLines cs [] with
      | some es, some later => some (es ++ later)
      | _, _ => none
    else assembleLines cs (c :: line)

/-- The program's steps are taken after those already pending (log entry 8). -/
def State.withProgram (s : State) (events : List Event) : State :=
  { s with pending := s.pending ++ events }

end Sys2Proof.Machine
end

