-- ==== Sys2Proof/Machine/Run.lean ====
section
/-! DEFINITION. Runs of the block, and how a run is reported (R40, R96). -/

namespace Sys2Proof.Machine

/-- The state after `n` steps, or the refusal at which the run stopped before (R40). -/
def runSteps : Nat → State → Result
  | 0, s => .next s
  | n + 1, s =>
    match step s with
    | .next t => runSteps n t
    | .fault f => .fault f
    | .refused r => .refused r

/-- The reports of a run. -/
inductive RunReport where
  /-- Every step was taken and no state of the run is halted. -/
  | clean
  /-- The run reaches the halted state (R96). -/
  | faulted
  /-- The run stops at a step the model refuses, without having reached the halted state (log entry 10). -/
  | refused
  deriving DecidableEq, Repr

/-- The report of the run of `n` steps from a state. It reads every state of the run, so a reset after the
halted state does not take the report back: the halted state "is not a final state of a run: a model reports
a run that reaches it as faulted" (R96). -/
def runReport : Nat → State → RunReport
  | 0, s => if s.faulted then .faulted else .clean
  | n + 1, s =>
    if s.faulted then .faulted
    else
      match step s with
      | .next t => runReport n t
      | .fault f => nomatch f
      | .refused _ => .refused

end Sys2Proof.Machine
end

