-- ==== Sys2Proof/Safety.lean ====
section
/-! DEFINITION. What counts as a safe run and the notions claims are stated in: the invariant of the state,
the deadline form of the liveness timer, and equality up to forgotten slots. -/

namespace Sys2Proof.Machine

/-- `LV_ALIVE == 0` implies `LV_REM == 0` (R19). -/
abbrev State.LivenessOk (s : State) : Prop := s.lvAlive = false → s.lvRem = 0

/-- The capacity is 1..255, there are that many slots, and the count is within it (R5, R20, R21). -/
abbrev State.FilterOk (s : State) : Prop :=
  s.filterCapacity ≠ 0 ∧ s.ftSlots.length = s.filterCapacity.toNat ∧
    s.ftCount.toNat ≤ s.filterCapacity.toNat

/-- `FAULT` is at its reset value, or holds a cause with an opcode that can raise it (R23, R93). -/
abbrev State.FaultOk (s : State) : Prop :=
  (s.faulted = false → s.cause = 0x00 ∧ s.fopc = 0x0) ∧
  (s.faulted = true →
    (s.cause = 0x01 ∧ (s.fopc = 0xE ∨ s.fopc = 0xF)) ∨
    (s.cause = 0x02 ∧ s.fopc ≠ 0xE ∧ s.fopc ≠ 0xF) ∨
    (s.cause = 0x03 ∧ (s.fopc = 0xA ∨ s.fopc = 0xC)) ∨
    (s.cause = 0x04 ∧ s.fopc = 0xD))

/-- The received-frame registers hold an 11-bit group-id, a length 0..8, and 0 in the bytes from that
length on (R24, R79). -/
abbrev State.ReceivedOk (s : State) : Prop :=
  s.rxfGid.toNat < 0x800 ∧ s.rxfLen.toNat ≤ 8 ∧
    ∀ k < 8, s.rxfLen.toNat ≤ k → payloadByte s.rxfData k = 0

/-- The RX latch holds 0 in the bytes that were not delivered (R84). -/
abbrev State.LatchOk (s : State) : Prop :=
  ∀ k < 8, s.rxLen.toNat ≤ k → payloadByte s.rxData k = 0

/-- Every frame handed to the transport is extended, has `len` bytes and at most 8, and carries a 16-bit
identity, so its id bits 17:16 are 0 (R26, R83, R86). -/
abbrev State.TxOk (s : State) : Prop :=
  ∀ f ∈ s.tx, f.ext = true ∧ f.bytes.length = f.len.toNat ∧ f.len.toNat ≤ 8 ∧
    f.id.extractLsb' 16 2 = 0

/-- One response for each command the host has issued (R14, R43). -/
abbrev State.HostOk (s : State) : Prop := s.hostPos = s.responses.length

/-- The invariant of the block. -/
structure State.Inv (s : State) : Prop where
  liveness : s.LivenessOk
  filter   : s.FilterOk
  fault    : s.FaultOk
  received : s.ReceivedOk
  latch    : s.LatchOk
  tx       : s.TxOk
  host     : s.HostOk

/-- The stored liveness state is current: ALIVE exactly when the countdown has not expired. It holds
after every check, and a claim about liveness between checks needs a poll rate as premise (R70, R112,
conflict C2). -/
abbrev State.LivenessCurrent (s : State) : Prop := s.lvAlive = true ↔ s.lvRem ≠ 0

/-- The source's form of the timer: the ticks since reset, and the deadline (R70). -/
structure Deadline where
  now      : Nat
  deadline : Nat
  deriving DecidableEq, Repr

/-- The duration that the next step arms the countdown with, if it is an arming other than reset: LSET,
LRTG, or the retrigger step of a RECV that takes a frame (R70). -/
def State.armingNext (s : State) : Option Word32 :=
  match s.pending with
  | .command cmd data :: _ =>
    if s.faulted then none
    else match decode cmd data with
      | .ok (.lset dur) => some dur
      | .ok .lrtg => some s.lvDur
      | .ok .recv =>
        if s.rxPend && (s.rxExt || decide (s.rxId.toNat < 0x800)) then some s.lvDur else none
      | _ => none
  | _ => none

/-- The deadline form after the next step: a tick advances `now`, reset starts it again, and an arming
sets the deadline from `now` (R70). -/
def Deadline.after (d : Deadline) (s : State) : Deadline :=
  match s.pending with
  | .tick :: _ => { d with now := d.now + 1 }
  | .reset _ :: _ => { now := 0, deadline := Config.lvResetTimeout.toNat }
  | _ =>
    match s.armingNext with
    | some dur => { d with deadline := d.now + dur.toNat }
    | none => d

/-- `LV_REM == max(0, deadline - now)` (R70). -/
def Deadline.Tracks (d : Deadline) (s : State) : Prop := s.lvRem.toNat = d.deadline - d.now

/-- Every field of R11 holds its reset value, with `id` on the `NODE_ID` input (R107). The slots, whose
reset value is unspecified (R21), are not named. -/
structure State.HasResetValues (s : State) (id : BitVec 16) : Prop where
  nodeId  : s.nodeId = id
  lvDur   : s.lvDur = Config.lvResetTimeout
  lvRem   : s.lvRem = Config.lvResetTimeout
  lvAlive : s.lvAlive = true
  ftCount : s.ftCount = 0
  fault   : s.faulted = false ∧ s.cause = 0x00 ∧ s.fopc = 0x0
  rxf     : s.rxfGid = 0 ∧ s.rxfSid = 0 ∧ s.rxfLen = 0 ∧ ∀ k : Fin 8, s.rxfData[k] = 0
  rx      : s.rxPend = false ∧ s.rxExt = false ∧ s.rxId = 0 ∧ s.rxLen = 0 ∧ ∀ k : Fin 8, s.rxData[k] = 0
  tx      : s.tx = []

/-- The two states differ at most in the contents of slots from `FT_COUNT` on (R22). -/
def SameButForgottenSlots (s t : State) : Prop :=
  t = { s with ftSlots := t.ftSlots } ∧ t.ftSlots.length = s.ftSlots.length ∧
    t.ftSlots.take s.ftCount.toNat = s.ftSlots.take s.ftCount.toNat

/-- The two outcomes are next states related by `R`, or the same refusal. -/
def OutcomesRelated (R : State → State → Prop) : Result → Result → Prop
  | .next s, .next t => R s t
  | .refused a, .refused b => a = b
  | _, _ => False

/-- The state with a transaction accepted: the host's position has moved past it (R14). -/
def State.accepted (s : State) : State := { s with hostPos := s.hostPos + 1 }

/-- The state with the word `r` given as response. -/
def State.answered (s : State) (r : Word64) : State := { s with responses := s.responses ++ [r] }

/-- The state after fault entry with cause code `code` in a command with opcode `opc` (R95, R97). -/
def State.faultEntered (s : State) (code : BitVec 8) (opc : BitVec 4) : State :=
  { s with
    faulted := true,
    cause := if s.faulted then s.cause else code,
    fopc := if s.faulted then s.fopc else opc,
    responses := s.responses ++ [0x1#4 ++ 0#52 ++ code] }

/-- The state after a command that found the block halted (R96). -/
def State.haltedAnswer (s : State) : State := s.answered (0x2#4 ++ 0#52 ++ s.cause)

/-- How the block executes every command word with opcode `opc` (R59): the reserved bits are those that
`reserved` reads, and the operands are those from which `instr` builds the command. While halted, a
command other than NOP and RDREG is answered HALTED; a reserved bit faults with RESERVED_BITS. -/
def FormatRule (opc : BitVec 4) (reserved : Word64 → Bool) (instr : Word64 → Word64 → Instr) : Prop :=
  ∀ (s : State) (cmd data : Word64), cmd.extractLsb' 60 4 = opc →
    step (s.withNext (.command cmd data)) =
      if s.faulted = true ∧ opc ≠ 0x0 ∧ opc ≠ 0xD then .next s.accepted.haltedAnswer
      else if reserved cmd then .next (s.accepted.faultEntered 0x02 opc)
      else exec (instr cmd data) s.accepted

/-- The step is a host command that decodes to an instruction with this property. -/
def Event.Runs (e : Event) (p : Instr → Prop) : Prop :=
  ∃ cmd data i, e = .command cmd data ∧ decode cmd data = .ok i ∧ p i

/-- The step is the reset agent's. -/
def Event.IsReset (e : Event) : Prop := ∃ id, e = .reset id

/-- The step is a transport delivery. -/
def Event.IsDelivery (e : Event) : Prop := ∃ ext id n bytes, e = .deliver ext id n bytes

/-- The step is a host command. -/
def Event.IsCommand (e : Event) : Prop := ∃ cmd data, e = .command cmd data

end Sys2Proof.Machine
end

