-- ==== Sys2Proof/Certificates/Slice0/Obligations.lean ====
section
/-! DEFINITION. The statements for the provers: what the numbered rules of spec/ say the block does. In a
command's rule the first parts give its effect as an equation of whole states, so that what the equation
does not name is unchanged, and the `FormatRule` part gives its encoding, its reserved bits and HALTED. -/

open Sys2Proof Sys2Proof.Machine

/-! ### Encoding -/

/-- R44 to R53: no operand bit is lost between the encoder and the decoder. -/
def Obligations.DecodeOfEncodeIsTheInstruction : Prop :=
  ∀ i : Instr, decode (encode i).1 (encode i).2 = .ok i

/-- R44 to R54: a command word has one meaning, and the encoder writes that word again. -/
def Obligations.EncodeOfDecodeIsTheCommandWord : Prop :=
  ∀ (cmd data : Word64) (i : Instr), decode cmd data = .ok i →
    (encode i).1 = cmd ∧ (cmd.extractLsb' 60 4 = 0xB → (encode i).2 = data)

/-- R54 against R55 and R56: a word decodes exactly when a row of the opcode map covers it, and to the
command of that row. -/
def Obligations.DecodeAcceptsExactlyTheOpcodeMap : Prop :=
  ∀ cmd data : Word64,
    ((∃ i, decode cmd data = .ok i) ↔ wellFormedWord cmd = true) ∧
    (∀ i, decode cmd data = .ok i →
      ∃ r, opcodeTable[(opcodeOf i).toNat]? = some r ∧ cmd &&& r.mask = r.value)

/-- R55: opcodes 0xE and 0xF are illegal, whatever the other bits. -/
def Obligations.IllegalOpcodesFault : Prop :=
  ∀ (s : State) (cmd data : Word64), s.faulted = false →
    cmd.extractLsb' 60 4 = 0xE ∨ cmd.extractLsb' 60 4 = 0xF →
    step (s.withNext (.command cmd data)) =
      .next (s.accepted.faultEntered 0x01 (cmd.extractLsb' 60 4))

/-- R56: a nonzero bit in a reserved field of the opcode's format faults. -/
def Obligations.ReservedBitsFault : Prop :=
  ∀ (s : State) (cmd data mask : Word64), s.faulted = false →
    (cmd.extractLsb' 60 4, mask) ∈
      [(0x0#4, 0x0FFFFFFFFFFFFFFF#64), (0x1#4, 0x0FFFFFFF00000000#64),
       (0x2#4, 0x0FFFFFFFFFFFFFFF#64), (0x3#4, 0x0FFFFFFFFFFFFFFF#64),
       (0x4#4, 0x0FFFFFFFFFFFFFFF#64), (0x5#4, 0x0FFFFFFFFFFFFFFF#64),
       (0x6#4, 0x0FFFFFFF00000000#64), (0x7#4, 0x0FFFFFFFFFFF0000#64),
       (0x8#4, 0x0FFFFFFFFFFFFFFF#64), (0x9#4, 0x0FFF000000000000#64),
       (0xA#4, 0x0FFFFFFEE0000000#64), (0xB#4, 0x0FFF0000FFFFFF00#64),
       (0xC#4, 0x0FFFFFFFFFFFFFFF#64), (0xD#4, 0x0FFFFFFFFFFFFF00#64)] →
    cmd &&& mask ≠ 0 →
    step (s.withNext (.command cmd data)) =
      .next (s.accepted.faultEntered 0x02 (cmd.extractLsb' 60 4))

/-- R57: two transactions with the same command word, other than SEND, do the same. -/
def Obligations.OnlySendReadsTheDataWord : Prop :=
  ∀ (s : State) (cmd data data' : Word64), cmd.extractLsb' 60 4 ≠ 0xB →
    step (s.withNext (.command cmd data)) = step (s.withNext (.command cmd data'))

/-- R45 to R54: words of every family decode to the commands the spec's examples name. -/
def Obligations.SampleWordsDecode : Prop :=
  decode 0x0000000000000000 0 = .ok .nop ∧
  decode 0x1000000000000064 0 = .ok (.lset 100) ∧
  decode 0x60000000000F0001 0 = .ok (.freg 0x0F 0x01) ∧
  decode 0x900001230000ABCD 0 = .ok (.enc 0x123 0xABCD) ∧
  decode 0xA0000001048CABCD 0 = .ok (.dec true 0x48CABCD) ∧
  decode 0xB00001550000000A 0x0807060504030201 = .ok (.send 0x155 10 0x0807060504030201) ∧
  decode 0xC000000000000000 0 = .ok .recv ∧
  decode 0xD00000000000000A 0 = .ok (.rdreg 0x0A)

/-! ### The step of a command -/

/-- R59: a pending command word that decodes to `i` is executed as `i`, on the state from which the step
is taken out and in which the host's position has advanced. -/
def Obligations.StepRunsTheDecodedCommand : Prop :=
  ∀ (s : State) (cmd data : Word64) (rest : List Event) (i : Instr),
    s.pending = .command cmd data :: rest → decode cmd data = .ok i →
    step s = exec i { s with pending := rest, hostPos := s.hostPos + 1 }

/-- R59: HALTED, then ILLEGAL_OPCODE, then RESERVED_BITS, then the command's own rule, for every command
word in every state. -/
def Obligations.CommandChecksRunInOrder : Prop :=
  ∀ (s : State) (cmd data : Word64),
    let opc := cmd.extractLsb' 60 4
    (s.faulted = true ∧ opc ≠ 0x0 ∧ opc ≠ 0xD →
      step (s.withNext (.command cmd data)) = .next s.accepted.haltedAnswer) ∧
    (¬(s.faulted = true ∧ opc ≠ 0x0 ∧ opc ≠ 0xD) →
      (opc = 0xE ∨ opc = 0xF →
        step (s.withNext (.command cmd data)) = .next (s.accepted.faultEntered 0x01 opc)) ∧
      (opc ≠ 0xE ∧ opc ≠ 0xF → wellFormedWord cmd = false →
        step (s.withNext (.command cmd data)) = .next (s.accepted.faultEntered 0x02 opc)) ∧
      (wellFormedWord cmd = true →
        ∃ i, decode cmd data = .ok i ∧ opcodeOf i = opc ∧
          step (s.withNext (.command cmd data)) = exec i s.accepted))

/-! ### Liveness -/

/-- R65: a tick is a saturating decrement of the countdown, halted or not, and writes nothing else. -/
def Obligations.TickCountsDownAndSaturates : Prop :=
  ∀ s : State, step (s.withNext .tick) =
    .next { s with lvRem := BitVec.ofNat 32 (s.lvRem.toNat - 1) }

/-- R66. -/
def Obligations.LsetSetsTheTimeoutAndRearms : Prop :=
  (∀ (s : State) (dur : Word32), s.faulted = false →
    exec (.lset dur) s = .next
      { s with lvDur := dur, lvRem := dur, lvAlive := true, responses := s.responses ++ [0#64] }) ∧
  (∀ (s : State) (dur : Word32), s.faulted = true → exec (.lset dur) s = .next s.haltedAnswer) ∧
  FormatRule 0x1 (fun c => c.extractLsb' 32 28 != 0) (fun c _ => .lset (c.extractLsb' 0 32))

/-- R67. -/
def Obligations.LrtgRetriggers : Prop :=
  (∀ s : State, s.faulted = false →
    exec .lrtg s = .next
      { s with lvRem := s.lvDur, lvAlive := true, responses := s.responses ++ [0#64] }) ∧
  (∀ s : State, s.faulted = true → exec .lrtg s = .next s.haltedAnswer) ∧
  FormatRule 0x2 (fun c => c.extractLsb' 0 60 != 0) (fun _ _ => .lrtg)

/-- R68; the last part but one is its corner case "1 exactly when `LV_REM != 0`" under R19. -/
def Obligations.LchkReportsAndStoresTheCheck : Prop :=
  (∀ s : State, s.faulted = false →
    exec .lchk s = .next
      { s with
        lvAlive := if s.lvRem = 0 then false else s.lvAlive,
        responses := s.responses ++ [if s.lvRem ≠ 0 ∧ s.lvAlive = true then 1#64 else 0#64] }) ∧
  (∀ s : State, s.faulted = true → exec .lchk s = .next s.haltedAnswer) ∧
  (∀ s : State, s.LivenessOk → s.faulted = false →
    exec .lchk s = .next
      { s with
        lvAlive := decide (s.lvRem ≠ 0),
        responses := s.responses ++ [if s.lvRem ≠ 0 then 1#64 else 0#64] }) ∧
  FormatRule 0x3 (fun c => c.extractLsb' 0 60 != 0) (fun _ _ => .lchk)

/-- R69. -/
def Obligations.LqryReportsWithoutChecking : Prop :=
  (∀ s : State, s.faulted = false →
    exec .lqry s = .next
      { s with responses := s.responses ++ [if s.lvAlive = true then 1#64 else 0#64] }) ∧
  (∀ s : State, s.faulted = true → exec .lqry s = .next s.haltedAnswer) ∧
  FormatRule 0x4 (fun c => c.extractLsb' 0 60 != 0) (fun _ _ => .lqry)

/-- R70: after LSET T, or after a retrigger with `LV_DUR` = T, a check that comes `n` ticks later reports
ALIVE exactly when `n < T`. -/
def Obligations.CheckReportsAliveWithinTheWindow : Prop :=
  (∀ (s : State) (dur : Word32) (n : Nat), s.faulted = false →
    ∃ armed t, exec (.lset dur) s = .next armed ∧ exec .lchk (Nat.iterate tick n armed) = .next t ∧
      t.responses = s.responses ++ [0#64, if n < dur.toNat then 1#64 else 0#64] ∧
      (t.lvAlive = true ↔ n < dur.toNat)) ∧
  (∀ (s : State) (n : Nat), s.faulted = false →
    ∃ armed t, exec .lrtg s = .next armed ∧ exec .lchk (Nat.iterate tick n armed) = .next t ∧
      t.responses = s.responses ++ [0#64, if n < s.lvDur.toNat then 1#64 else 0#64] ∧
      (t.lvAlive = true ↔ n < s.lvDur.toNat))

/-- R70: the countdown is the source's deadline form: `LV_REM == max(0, deadline - now)` after a reset,
and every step keeps it. -/
def Obligations.CountdownTracksTheDeadline : Prop :=
  (∀ (d : Deadline) (s t : State), d.Tracks s → step s = .next t → (d.after s).Tracks t) ∧
  (∀ (d : Deadline) (s t : State) (id : BitVec 16),
    step (s.withNext (.reset id)) = .next t → (d.after (s.withNext (.reset id))).Tracks t)

/-- R70, conflict C2: after a check the stored liveness state is current, and after an arming it is ALIVE
with the countdown at the armed duration. -/
def Obligations.LivenessIsCurrentAfterACheck : Prop :=
  ∀ (s t : State), s.LivenessOk → s.faulted = false →
    (exec .lchk s = .next t → t.LivenessCurrent) ∧
    (exec .recv s = .next t → s.rxPend = false → t.LivenessCurrent) ∧
    (exec .recv s = .next t → s.rxPend = true → t.faulted = false →
      t.lvAlive = true ∧ t.lvRem = s.lvDur)

/-- R99: a tick and a check may come in either order, and the two orders report differently when the
countdown is at 1. -/
def Obligations.TickAndCheckInEitherOrder : Prop :=
  ∀ (s : State) (data data' : Word64), s.faulted = false → s.lvRem = 1 → s.lvAlive = true →
    (∃ a b, step ((s.withNext (.command 0x3000000000000000 data)).withNext .tick) = .next a ∧
      step a = .next b ∧ b.responses = s.responses ++ [0#64] ∧ b.lvRem = 0 ∧ b.lvAlive = false) ∧
    (∃ a b, step ((s.withNext .tick).withNext (.command 0x3000000000000000 data')) = .next a ∧
      step a = .next b ∧ b.responses = s.responses ++ [1#64] ∧ b.lvRem = 0 ∧ b.lvAlive = true)

/-! ### Filter -/

/-- R72: pass-through on an empty table; else the pattern of the first matching entry in registration
order; else no match. -/
def Obligations.FilterEvalIsFirstMatch : Prop :=
  ∀ (s : State) (g : GroupId),
    (s.ftCount = 0 → filterEval s g = (true, g)) ∧
    (∀ (i : Nat) (e : FilterEntry), i < s.ftCount.toNat → s.ftSlots[i]? = some e →
      g &&& e.mask = e.pat →
      (∀ (j : Nat) (e' : FilterEntry), j < i → s.ftSlots[j]? = some e' → g &&& e'.mask ≠ e'.pat) →
      filterEval s g = (true, e.pat)) ∧
    (s.ftCount ≠ 0 →
      (∀ (i : Nat) (e : FilterEntry), i < s.ftCount.toNat → s.ftSlots[i]? = some e →
        g &&& e.mask ≠ e.pat) →
      filterEval s g = (false, 0))

/-- R77, its six laws in order. -/
def Obligations.MatchEngineLaws : Prop :=
  (∀ (s : State) (g : GroupId), s.ftCount = 0 → filterEval s g = (true, g)) ∧
  (∀ (s : State) (g v : GroupId), s.ftCount ≠ 0 → filterEval s g = (true, v) →
    ∃ (i : Nat) (e : FilterEntry), i < s.ftCount.toNat ∧ s.ftSlots[i]? = some e ∧
      v = e.pat ∧ v = g &&& e.mask ∧ v &&& ~~~e.mask = 0) ∧
  (∀ (g : GroupId) (e : FilterEntry), e.pat &&& ~~~e.mask ≠ 0 → entryMatches g e = false) ∧
  (∀ (s t : State) (g : GroupId), s.ftCount = t.ftCount →
    s.ftSlots.take s.ftCount.toNat = t.ftSlots.take t.ftCount.toNat →
    filterEval s g = filterEval t g) ∧
  (∀ (s : State) (mask pat : BitVec 16), s.faulted = false →
    s.filterCapacity.toNat ≤ s.ftCount.toNat →
    ∃ t, exec (.freg mask pat) s = .next t ∧ t.ftCount = s.ftCount ∧ t.ftSlots = s.ftSlots ∧
      ∀ g, filterEval t g = filterEval s g) ∧
  (∀ (s : State) (g : GroupId), s.FilterOk → s.ftCount ≠ 0 →
    (∀ (i : Nat) (e : FilterEntry), i < s.ftCount.toNat → s.ftSlots[i]? = some e →
      e.mask = 0xFFFF) →
    ((filterEval s g).1 = true ↔
      ∃ (i : Nat) (e : FilterEntry), i < s.ftCount.toNat ∧ s.ftSlots[i]? = some e ∧ e.pat = g))

/-- R73. -/
def Obligations.FclrEmptiesTheTable : Prop :=
  (∀ s : State, s.faulted = false →
    exec .fclr s = .next { s with ftCount := 0, responses := s.responses ++ [0#64] }) ∧
  (∀ s : State, s.faulted = true → exec .fclr s = .next s.haltedAnswer) ∧
  FormatRule 0x5 (fun c => c.extractLsb' 0 60 != 0) (fun _ _ => .fclr)

/-- R74; the last part but one is its corner case "NONEMPTY is 1 after every FREG". -/
def Obligations.FregStoresOrDropsTheEntry : Prop :=
  (∀ (s : State) (mask pat : BitVec 16), s.faulted = false →
    s.ftCount.toNat < s.filterCapacity.toNat →
    exec (.freg mask pat) s = .next
      { s with
        ftSlots := s.ftSlots.set s.ftCount.toNat ⟨mask, pat⟩,
        ftCount := s.ftCount + 1,
        responses := s.responses ++ [0#48 ++ (s.ftCount + 1) ++ 0#6 ++ 1#1 ++ 1#1] }) ∧
  (∀ (s : State) (mask pat : BitVec 16), s.faulted = false →
    s.filterCapacity.toNat ≤ s.ftCount.toNat →
    exec (.freg mask pat) s = .next
      { s with
        responses := s.responses ++
          [0#48 ++ s.ftCount ++ 0#6 ++ 0#1 ++ (if s.ftCount = 0 then 0#1 else 1#1)] }) ∧
  (∀ (s : State) (mask pat : BitVec 16), s.faulted = true →
    exec (.freg mask pat) s = .next s.haltedAnswer) ∧
  (∀ (s t : State) (mask pat : BitVec 16), s.FilterOk → s.faulted = false →
    exec (.freg mask pat) s = .next t → ∃ r, t.responses = s.responses ++ [r] ∧ r.getLsbD 0 = true) ∧
  FormatRule 0x6 (fun c => c.extractLsb' 32 28 != 0)
    (fun c _ => .freg (c.extractLsb' 16 16) (c.extractLsb' 0 16))

/-- R75, with `filter_eval` as R72 gives it. -/
def Obligations.FevalReportsTheMatch : Prop :=
  (∀ (s : State) (gid : GroupId), s.faulted = false →
    exec (.feval gid) s = .next
      { s with
        responses := s.responses ++
          [0#47 ++ (if (filterEval s gid).1 = true then 1#1 else 0#1) ++ (filterEval s gid).2] }) ∧
  (∀ (s : State) (gid : GroupId), s.faulted = true → exec (.feval gid) s = .next s.haltedAnswer) ∧
  FormatRule 0x7 (fun c => c.extractLsb' 16 44 != 0) (fun c _ => .feval (c.extractLsb' 0 16))

/-- R76. -/
def Obligations.FcntReportsTheCount : Prop :=
  (∀ s : State, s.faulted = false →
    exec .fcnt s = .next { s with responses := s.responses ++ [s.ftCount.setWidth 64] }) ∧
  (∀ s : State, s.faulted = true → exec .fcnt s = .next s.haltedAnswer) ∧
  FormatRule 0x8 (fun c => c.extractLsb' 0 60 != 0) (fun _ _ => .fcnt)

/-- R22: two blocks that differ only in slots from `FT_COUNT` on take the same steps, give the same
responses and go on differing only there; and FCLR erases no slot. -/
def Obligations.ForgottenSlotsAreUnobservable : Prop :=
  (∀ s t : State, SameButForgottenSlots s t →
    OutcomesRelated SameButForgottenSlots (step s) (step t)) ∧
  (∀ s t : State, s.faulted = false → exec .fclr s = .next t →
    t.ftSlots = s.ftSlots ∧ t.ftCount = 0)

/-! ### Codec -/

/-- R78: the fields within the precondition, and which bits of the operands go where outside it. -/
def Obligations.CodecEncodePacksTheFields : Prop :=
  (∀ (g : GroupId) (s : BitVec 32), g.toNat < 2 ^ 11 → s.toNat < 2 ^ 18 →
    codecEncode g s = g.extractLsb' 0 11 ++ s.extractLsb' 0 18) ∧
  (∀ (g : GroupId) (s : BitVec 32),
    (codecEncode g s).extractLsb' 18 11 = g.extractLsb' 0 11 ||| s.extractLsb' 18 11 ∧
    (codecEncode g s).extractLsb' 0 18 = s.extractLsb' 0 18) ∧
  (∀ (g : GroupId) (s : BitVec 32),
    (codecEncode g s).toNat = ((g.toNat * 2 ^ 18) ||| s.toNat) % 2 ^ 29)

/-- R79, with the values as the source writes them: `raw >> 18` and `raw & 0x3FFFF`, or `raw` and 0. -/
def Obligations.CodecDecodeUnpacksTheFields : Prop :=
  (∀ raw : ArbId, ∃ g s, codecDecode true raw = some (g, s) ∧
    g.toNat = raw.toNat / 2 ^ 18 ∧ s.toNat = raw.toNat % 2 ^ 18) ∧
  (∀ raw : ArbId, raw.toNat < 0x800 →
    ∃ g, codecDecode false raw = some (g, 0) ∧ g.toNat = raw.toNat) ∧
  (∀ (s : State) (raw : ArbId), 0x800 ≤ raw.toNat → s.faulted = false →
    exec (.dec false raw) s = .next (s.faultEntered 0x03 0xA)) ∧
  (∀ s : State, s.faulted = false → s.rxPend = true → s.rxExt = false → 0x800 ≤ s.rxId.toNat →
    exec .recv s = .next (s.faultEntered 0x03 0xC))

/-- R80: both directions move the first `min(n, 8)` bytes, and no fault comes of a longer payload. -/
def Obligations.PayloadIsCappedAtEightBytes : Prop :=
  (∀ (s : State) (gid : GroupId) (len : BitVec 8) (data : Word64), s.faulted = false →
    ∃ t f, exec (.send gid len data) s = .next t ∧ t.tx = s.tx ++ [f] ∧ t.faulted = false ∧
      f.len.toNat = min len.toNat 8 ∧ f.bytes.length = min len.toNat 8 ∧
      ∀ k < min len.toNat 8, f.bytes[k]? = some (data.extractLsb' (8 * k) 8)) ∧
  (∀ s : State, s.faulted = false → s.rxPend = true →
    s.rxExt = true ∨ s.rxId.toNat < 0x800 →
    ∃ t, exec .recv s = .next t ∧ t.faulted = false ∧ t.rxfLen.toNat = min s.rxLen.toNat 8 ∧
      ∀ k : Fin 8, t.rxfData[k] = if k.val < min s.rxLen.toNat 8 then s.rxData[k] else 0)

/-- R81, with `codec_encode` written out. -/
def Obligations.EncPacksAnId : Prop :=
  (∀ (s : State) (gid : GroupId) (sid : BitVec 32), s.faulted = false →
    exec (.enc gid sid) s = .next
      { s with
        responses := s.responses ++
          [(((gid.setWidth 32 <<< 18) ||| sid).setWidth 29 : ArbId).setWidth 64] }) ∧
  (∀ (s : State) (gid : GroupId) (sid : BitVec 32), s.faulted = true →
    exec (.enc gid sid) s = .next s.haltedAnswer) ∧
  FormatRule 0x9 (fun c => c.extractLsb' 48 12 != 0)
    (fun c _ => .enc (c.extractLsb' 32 16) (c.extractLsb' 0 32))

/-- R82, with `codec_decode` written out. -/
def Obligations.DecUnpacksAnId : Prop :=
  (∀ (s : State) (raw : ArbId), s.faulted = false →
    exec (.dec true raw) s = .next
      { s with
        responses := s.responses ++
          [0#21 ++ raw.extractLsb' 18 11 ++ 0#14 ++ raw.extractLsb' 0 18] }) ∧
  (∀ (s : State) (raw : ArbId), s.faulted = false → raw.toNat < 0x800 →
    exec (.dec false raw) s = .next
      { s with responses := s.responses ++ [0#21 ++ raw.extractLsb' 0 11 ++ 0#32] }) ∧
  (∀ (s : State) (raw : ArbId), s.faulted = false → 0x800 ≤ raw.toNat →
    exec (.dec false raw) s = .next (s.faultEntered 0x03 0xA)) ∧
  (∀ (s : State) (ext : Bool) (raw : ArbId), s.faulted = true →
    exec (.dec ext raw) s = .next s.haltedAnswer) ∧
  FormatRule 0xA (fun c => c.extractLsb' 33 27 != 0 || c.extractLsb' 29 3 != 0)
    (fun c _ => .dec (c.extractLsb' 32 1 == 1) (c.extractLsb' 0 29))

/-- R83, its four laws in order. -/
def Obligations.CodecLaws : Prop :=
  (∀ (g : GroupId) (s : BitVec 32), g.toNat < 2 ^ 11 → s.toNat < 2 ^ 18 →
    ∃ s', codecDecode true (codecEncode g s) = some (g, s') ∧ s'.toNat = s.toNat) ∧
  (∀ r : ArbId, ∃ g s, codecDecode true r = some (g, s) ∧ codecEncode g (s.setWidth 32) = r) ∧
  (∀ g : GroupId, g.toNat < 2 ^ 11 → codecDecode false (g.setWidth 29) = some (g, 0)) ∧
  (∀ (s t : State) (gid : GroupId) (len : BitVec 8) (data : Word64) (f : TxFrame),
    exec (.send gid len data) s = .next t → t.tx = s.tx ++ [f] → f.id.extractLsb' 16 2 = 0)

/-! ### Session and transport -/

/-- R84: the transport fills an empty latch, halted or not, and has no step while a frame is pending. -/
def Obligations.DeliveryFillsTheEmptyLatch : Prop :=
  (∀ (s : State) (ext : Bool) (id : ArbId) (n : BitVec 8) (b : Payload), s.rxPend = false →
    step (s.withNext (.deliver ext id n b)) = .next
      { s with
        rxPend := true, rxExt := ext, rxId := id, rxLen := n,
        rxData := Vector.ofFn fun k : Fin 8 => if k.val < min n.toNat 8 then b[k] else 0 }) ∧
  (∀ (s : State) (ext : Bool) (id : ArbId) (n : BitVec 8) (b : Payload), s.rxPend = true →
    step (s.withNext (.deliver ext id n b)) = .refused .deliveryIntoFullLatch)

/-- R86, with `payload_cap` and `codec_encode` written out. -/
def Obligations.SendTransmitsOneFrame : Prop :=
  (∀ (s : State) (gid : GroupId) (len : BitVec 8) (data : Word64), s.faulted = false →
    let n := min len.toNat 8
    let id : ArbId := ((gid.setWidth 32 <<< 18) ||| s.nodeId.setWidth 32).setWidth 29
    exec (.send gid len data) s = .next
      { s with
        tx := s.tx ++
          [⟨id, true, BitVec.ofNat 4 n, (List.range n).map fun k => data.extractLsb' (8 * k) 8⟩],
        responses := s.responses ++ [0#19 ++ id ++ 0#4 ++ BitVec.ofNat 4 n ++ 0#7 ++ 1#1] }) ∧
  (∀ (s : State) (gid : GroupId) (len : BitVec 8) (data : Word64), s.faulted = true →
    exec (.send gid len data) s = .next s.haltedAnswer) ∧
  FormatRule 0xB (fun c => c.extractLsb' 48 12 != 0 || c.extractLsb' 8 24 != 0)
    (fun c d => .send (c.extractLsb' 32 16) (c.extractLsb' 0 8) d)

/-- R87, with `codec_decode` and `payload_cap` written out and `filter_eval` as R72 gives it. -/
def Obligations.RecvPollsOnce : Prop :=
  (∀ s : State, s.faulted = false → s.rxPend = false →
    exec .recv s = .next
      { s with
        lvAlive := if s.lvRem = 0 then false else s.lvAlive,
        responses := s.responses ++ [0#64] }) ∧
  (∀ s : State, s.faulted = false → s.rxPend = true → s.rxExt = true ∨ s.rxId.toNat < 0x800 →
    let g : GroupId := if s.rxExt = true then (s.rxId >>> 18).setWidth 16 else s.rxId.setWidth 16
    let n := min s.rxLen.toNat 8
    exec .recv s = .next
      { s with
        lvRem := s.lvDur, lvAlive := true,
        rxfGid := g, rxfSid := if s.rxExt = true then s.rxId.setWidth 18 else 0,
        rxfLen := BitVec.ofNat 4 n,
        rxfData := Vector.ofFn fun k : Fin 8 => if k.val < n then s.rxData[k] else 0,
        rxPend := false,
        responses := s.responses ++
          [0#6 ++ (if (filterEval s g).1 = true then 1#2 else 2#2) ++ 0#40 ++ (filterEval s g).2] }) ∧
  (∀ s : State, s.faulted = false → s.rxPend = true → s.rxExt = false → 0x800 ≤ s.rxId.toNat →
    exec .recv s = .next (s.faultEntered 0x03 0xC)) ∧
  (∀ s : State, s.faulted = true → exec .recv s = .next s.haltedAnswer) ∧
  FormatRule 0xC (fun c => c.extractLsb' 0 60 != 0) (fun _ _ => .recv)

/-- R88, its laws 1, 2, 4 and 5, and of law 3 that the countdown is armed at most by a frame taken. -/
def Obligations.RecvLaws : Prop :=
  (∀ s t u : State, s.rxPend = false → exec .recv s = .next t → exec .lchk s = .next u →
    t = { u with responses := t.responses }) ∧
  (∀ s t : State, s.faulted = false → s.rxPend = true → exec .recv s = .next t →
    t.faulted = false →
    t.lvAlive = true ∧ t.lvRem = s.lvDur ∧
      ∃ u, exec .lqry t = .next u ∧ u.responses = t.responses ++ [1#64]) ∧
  (∀ s t : State, exec .recv s = .next t → t.lvRem ≠ s.lvRem →
    s.rxPend = true ∧ t.rxPend = false ∧ t.lvRem = s.lvDur) ∧
  (∀ s t : State, exec .recv s = .next t →
    t.ftCount = s.ftCount ∧ t.ftSlots = s.ftSlots ∧ t.nodeId = s.nodeId ∧ t.lvDur = s.lvDur ∧
      t.tx = s.tx) ∧
  (∀ s t : State, s.faulted = false → exec .recv s = .next t → t.faulted = false →
    ∃ r : Word64, t.responses = s.responses ++ [r] ∧
      (r.extractLsb' 56 2 = 0 ↔ s.rxPend = false) ∧
      (r.extractLsb' 56 2 = 2 ↔ s.rxPend = true ∧ (filterEval s t.rxfGid).1 = false))

/-- R89, its three laws in order. -/
def Obligations.SendLaws : Prop :=
  (∀ (s t : State) (gid : GroupId) (len : BitVec 8) (data : Word64),
    exec (.send gid len data) s = .next t →
    t = { s with tx := t.tx, responses := t.responses }) ∧
  (∀ (s t : State) (gid : GroupId) (len : BitVec 8) (data : Word64), s.faulted = false →
    gid.toNat < 2 ^ 11 → exec (.send gid len data) s = .next t →
    ∃ f, t.tx = s.tx ++ [f] ∧ codecDecode true f.id = some (gid, s.nodeId.setWidth 18)) ∧
  (∀ (s t : State) (gid : GroupId) (len : BitVec 8) (data r : Word64),
    exec (.send gid len data) s = .next t → t.responses = s.responses ++ [r] →
    r.extractLsb' 60 4 = 0 → r.getLsbD 0 = true)

/-- R34: byte k of a payload sits at bits 8k+7:8k of the SEND data word and of the two RXF_DATA values. -/
def Obligations.PayloadBytesArePackedLittleEndian : Prop :=
  (∀ (s : State) (gid : GroupId) (len : BitVec 8) (data : Word64), s.faulted = false →
    ∃ t f, exec (.send gid len data) s = .next t ∧ t.tx = s.tx ++ [f] ∧
      ∀ k < min len.toNat 8, f.bytes[k]? = some (BitVec.ofNat 8 (data.toNat / 2 ^ (8 * k)))) ∧
  (∀ s : State, ∃ t u r q, exec (.rdreg 0x0A) s = .next t ∧ t.responses = s.responses ++ [r] ∧
    exec (.rdreg 0x0B) s = .next u ∧ u.responses = s.responses ++ [q] ∧
    ∀ (k : Nat) (h : k < 4),
      r.extractLsb' (8 * k) 8 = s.rxfData[k] ∧ q.extractLsb' (8 * k) 8 = s.rxfData[4 + k])

/-! ### System commands -/

/-- R90. -/
def Obligations.NopDoesNothing : Prop :=
  (∀ s : State, exec .nop s = .next { s with responses := s.responses ++ [0#64] }) ∧
  FormatRule 0x0 (fun c => c.extractLsb' 0 60 != 0) (fun _ _ => .nop)

/-- R91, with the register numbers of R28. -/
def Obligations.RdregReadsTheNumberedRegister : Prop :=
  (∀ (s : State) (regno : BitVec 8) (v : Word32),
    (regno, v) ∈
      [ (0x00#8, s.nodeId.setWidth 32), (0x01#8, s.ftCount.setWidth 32),
        (0x02#8, s.filterCapacity.setWidth 32), (0x03#8, s.lvDur), (0x04#8, s.lvRem),
        (0x05#8, if s.lvAlive = true then 1#32 else 0#32),
        (0x06#8, 0#12 ++ s.fopc ++ s.cause ++ 0#7 ++ (if s.faulted = true then 1#1 else 0#1)),
        (0x07#8, s.rxfGid.setWidth 32), (0x08#8, s.rxfSid.setWidth 32),
        (0x09#8, s.rxfLen.setWidth 32),
        (0x0A#8, s.rxfData[3] ++ s.rxfData[2] ++ s.rxfData[1] ++ s.rxfData[0]),
        (0x0B#8, s.rxfData[7] ++ s.rxfData[6] ++ s.rxfData[5] ++ s.rxfData[4]) ] →
    exec (.rdreg regno) s = .next { s with responses := s.responses ++ [v.setWidth 64] }) ∧
  (∀ (s : State) (regno : BitVec 8), 0x0C ≤ regno.toNat →
    exec (.rdreg regno) s = .next (s.faultEntered 0x04 0xD)) ∧
  FormatRule 0xD (fun c => c.extractLsb' 8 52 != 0) (fun c _ => .rdreg (c.extractLsb' 0 8))

/-- R39: the commands without side effects leave every field but the response, or fault, and a second
execution gives the same response. -/
def Obligations.ReadCommandsHaveNoSideEffect : Prop :=
  ∀ (s : State) (i : Instr),
    i = .nop ∨ i = .lqry ∨ i = .fcnt ∨ (∃ g, i = .feval g) ∨ (∃ g d, i = .enc g d) ∨
      (∃ e r, i = .dec e r) ∨ (∃ n, i = .rdreg n) →
    ∃ t r, exec i s = .next t ∧ t.responses = s.responses ++ [r] ∧
      (r.extractLsb' 60 4 ≠ 1 → t = s.answered r ∧ exec i t = .next (t.answered r)) ∧
      (r.extractLsb' 60 4 = 1 → t = s.faultEntered (r.extractLsb' 0 8) (opcodeOf i))

/-! ### Faults and the halted state -/

/-- R95: a command that answers STATUS FAULT changes nothing but the fault register, and that only if no
fault was recorded before. -/
def Obligations.FaultEntryIsPrecise : Prop :=
  ∀ (s t : State) (cmd data r : Word64),
    step (s.withNext (.command cmd data)) = .next t → t.responses = s.responses ++ [r] →
    r.extractLsb' 60 4 = 1 →
    t = s.accepted.faultEntered (r.extractLsb' 0 8) (cmd.extractLsb' 60 4) ∧
      r = 0x1#4 ++ 0#52 ++ r.extractLsb' 0 8

/-- R96: while halted, NOP and RDREG execute, ticks and deliveries go on, and every other command is
answered HALTED and changes nothing; and a run that reaches the state is reported as faulted, however it
goes on, through a reset too. The form of `runReport` is log entry 10's. -/
def Obligations.HaltedBlockAnswersHalted : Prop :=
  ∀ s : State, s.faulted = true →
    (∀ cmd data : Word64, cmd.extractLsb' 60 4 ≠ 0x0 → cmd.extractLsb' 60 4 ≠ 0xD →
      step (s.withNext (.command cmd data)) = .next
        { s with
          hostPos := s.hostPos + 1,
          responses := s.responses ++ [0x2#4 ++ 0#52 ++ s.cause] }) ∧
    (∀ (cmd data : Word64) (i : Instr), decode cmd data = .ok i →
      i = .nop ∨ (∃ n, i = .rdreg n) →
      step (s.withNext (.command cmd data)) = exec i s.accepted) ∧
    step (s.withNext .tick) = .next { s with lvRem := BitVec.ofNat 32 (s.lvRem.toNat - 1) } ∧
    (∀ ext id n b, s.rxPend = false →
      ∃ t, step (s.withNext (.deliver ext id n b)) = .next t ∧ t.rxPend = true ∧ t.faulted = true) ∧
    (∀ (m n : Nat) (s0 : State), m ≤ n → runSteps m s0 = .next s → runReport n s0 = .faulted)

/-- R97: only reset clears `FAULT`, the first cause and opcode are kept, and a fault while halted comes
only of NOP with reserved bits, or of RDREG with reserved bits or an unassigned number. -/
def Obligations.OnlyResetClearsTheFault : Prop :=
  (∀ (s t : State) (e : Event) (rest : List Event), s.pending = e :: rest → step s = .next t →
    s.faulted = true → ¬e.IsReset →
    t.faulted = true ∧ t.cause = s.cause ∧ t.fopc = s.fopc) ∧
  (∀ (s t : State) (cmd data r : Word64), s.faulted = true →
    step (s.withNext (.command cmd data)) = .next t → t.responses = s.responses ++ [r] →
    r.extractLsb' 60 4 = 1 →
    (r.extractLsb' 0 8 = 0x02 ∧ cmd.extractLsb' 60 4 = 0x0 ∧ cmd.extractLsb' 0 60 ≠ 0) ∨
    (r.extractLsb' 0 8 = 0x02 ∧ cmd.extractLsb' 60 4 = 0xD ∧ cmd.extractLsb' 8 52 ≠ 0) ∨
    (r.extractLsb' 0 8 = 0x04 ∧ cmd.extractLsb' 60 4 = 0xD ∧ cmd.extractLsb' 8 52 = 0 ∧
      0x0C ≤ (cmd.extractLsb' 0 8).toNat)) ∧
  (∀ (s t : State) (id : BitVec 16), step (s.withNext (.reset id)) = .next t →
    t.faulted = false ∧ t.cause = 0 ∧ t.fopc = 0)

/-- R58: every command gets one response word, of STATUS OK, FAULT or HALTED, in which every bit that is
no result field is 0, and RECV's KIND 3 does not occur. -/
def Obligations.ResponseWordsKeepTheirForm : Prop :=
  ∀ (s : State) (cmd data : Word64), ∃ t r,
    step (s.withNext (.command cmd data)) = .next t ∧ t.responses = s.responses ++ [r] ∧
    (r.extractLsb' 60 4 = 0 ∨ r.extractLsb' 60 4 = 1 ∨ r.extractLsb' 60 4 = 2) ∧
    (r.extractLsb' 60 4 ≠ 0 → r.extractLsb' 8 52 = 0) ∧
    (r.extractLsb' 60 4 = 2 → r.extractLsb' 0 8 = s.cause) ∧
    (r.extractLsb' 60 4 = 0 →
      ∃ fields : Word64, (cmd.extractLsb' 60 4, fields) ∈
        [(0x0#4, 0x0#64), (0x1#4, 0x0#64), (0x2#4, 0x0#64), (0x3#4, 0x1#64), (0x4#4, 0x1#64),
         (0x5#4, 0x0#64), (0x6#4, 0xFF03#64), (0x7#4, 0x1FFFF#64), (0x8#4, 0xFF#64),
         (0x9#4, 0x1FFFFFFF#64), (0xA#4, 0x0000FFFF0003FFFF#64), (0xB#4, 0x00001FFFFFFF0F01#64),
         (0xC#4, 0x030000000000FFFF#64), (0xD#4, 0xFFFFFFFF#64)] ∧
        r &&& ~~~fields = 0 ∧ (cmd.extractLsb' 60 4 = 0xC → r.extractLsb' 56 2 ≠ 3))

/-! ### The whole machine -/

/-- R107: what reset leaves in every field of R11, in a reset step and in the reset that begins a run, and
that no other step clears `FAULT`. `LV_RESET_TIMEOUT` and the `NODE_ID` input are open parameters. -/
def Obligations.ResetSetsEveryField : Prop :=
  (∀ (s : State) (id : BitVec 16), ∃ t,
    step (s.withNext (.reset id)) = .next t ∧ t.HasResetValues id) ∧
  State.reset.HasResetValues Config.nodeIdInput ∧
  (∀ (s t : State) (e : Event) (rest : List Event), s.pending = e :: rest → step s = .next t →
    s.faulted = true → t.faulted = false → e.IsReset)

/-- What reset leaves in the model's own fields, the model's choice (log entries 1, 2, 3, 7, 9, 15): a reset
step keeps the capacity, the pending steps, the responses given and the host's position, makes as many
slots as the capacity and counts itself; the run begins with nothing pending and nothing answered. -/
def Obligations.ResetKeepsTheModelsOwnFields : Prop :=
  (∀ (s : State) (id : BitVec 16), ∃ t, step (s.withNext (.reset id)) = .next t ∧
    t.ftSlots.length = s.filterCapacity.toNat ∧ t.filterCapacity = s.filterCapacity ∧
    t.pending = s.pending ∧ t.responses = s.responses ∧ t.hostPos = s.hostPos ∧
    t.resets = s.resets + 1) ∧
  State.reset.ftSlots.length = 10 ∧ State.reset.filterCapacity = 10 ∧ State.reset.pending = [] ∧
  State.reset.responses = [] ∧ State.reset.hostPos = 0 ∧ State.reset.resets = 0

/-- The invariant of the block holds right after reset (R19, R20, R23, R24, R26). That no response is given
yet is the model's choice (log entry 2). -/
def Obligations.InvariantHoldsAtReset : Prop := State.reset.Inv

/-- Every step of every agent keeps the invariant of the block (R19, R20, R23, R24, R26, R43, R93). That a
reset keeps its part `host` is the model's choice (log entry 15). -/
def Obligations.EveryStepKeepsTheInvariant : Prop :=
  ∀ s t : State, s.Inv → step s = .next t → t.Inv

/-- R19: the liveness invariant alone, kept by every step and holding after reset. -/
def Obligations.DeadImpliesExpired : Prop :=
  State.reset.LivenessOk ∧ ∀ s t : State, s.LivenessOk → step s = .next t → t.LivenessOk

/-- R10, R40: a step is the first pending step of an agent, and gives a next state; the one exception is a
delivery into a full latch, which is no step of the block. The machine never stops with a fault. With
nothing pending it waits, and a reset keeps what is pending (log entries 1 and 15, the model's choices). -/
def Obligations.EveryStepIsOneAgentsStep : Prop :=
  ∀ s : State,
    (s.pending = [] → step s = .next s) ∧
    (∀ (e : Event) (rest : List Event), s.pending = e :: rest →
      (∃ t, step s = .next t ∧ t.pending = rest ∧ t.filterCapacity = s.filterCapacity) ∨
      (e.IsDelivery ∧ s.rxPend = true ∧ step s = .refused .deliveryIntoFullLatch))

/-- R14, R43: each command gives one response and moves the host's position by one, whatever its outcome;
no other step does either. That a reset does neither is the model's choice (log entry 15); that the
responses stand in the state is log entry 2's. -/
def Obligations.OneResponseForEachCommand : Prop :=
  ∀ (s t : State) (e : Event) (rest : List Event), s.pending = e :: rest → step s = .next t →
    (e.IsCommand → (∃ r, t.responses = s.responses ++ [r]) ∧ t.hostPos = s.hostPos + 1) ∧
    (¬e.IsCommand → t.responses = s.responses ∧ t.hostPos = s.hostPos)

/-- R15 to R26: which steps can change each field. -/
def Obligations.OnlyTheNamedStepsWriteEachField : Prop :=
  ∀ (s t : State) (e : Event) (rest : List Event), s.pending = e :: rest → step s = .next t →
    (t.nodeId ≠ s.nodeId → e.IsReset) ∧
    (t.lvDur ≠ s.lvDur → e.IsReset ∨ e.Runs fun i => ∃ dur, i = .lset dur) ∧
    (t.lvRem ≠ s.lvRem →
      e.IsReset ∨ e = .tick ∨ e.Runs fun i => (∃ dur, i = .lset dur) ∨ i = .lrtg ∨ i = .recv) ∧
    (t.lvAlive ≠ s.lvAlive →
      e.IsReset ∨ e.Runs fun i => (∃ dur, i = .lset dur) ∨ i = .lrtg ∨ i = .lchk ∨ i = .recv) ∧
    (t.ftCount ≠ s.ftCount → e.IsReset ∨ e.Runs fun i => i = .fclr ∨ ∃ m p, i = .freg m p) ∧
    (∀ k : Nat, t.ftSlots[k]? ≠ s.ftSlots[k]? →
      e.IsReset ∨ (k = s.ftCount.toNat ∧ k < s.filterCapacity.toNat ∧
        e.Runs fun i => ∃ m p, i = .freg m p ∧ t.ftSlots[k]? = some ⟨m, p⟩)) ∧
    ((t.faulted, t.cause, t.fopc) ≠ (s.faulted, s.cause, s.fopc) →
      e.IsReset ∨ (e.IsCommand ∧ s.faulted = false)) ∧
    ((t.rxfGid, t.rxfSid, t.rxfLen, t.rxfData) ≠ (s.rxfGid, s.rxfSid, s.rxfLen, s.rxfData) →
      e.IsReset ∨ (s.rxPend = true ∧ e.Runs fun i => i = .recv)) ∧
    (t.rxPend ≠ s.rxPend → e.IsReset ∨ e.IsDelivery ∨ e.Runs fun i => i = .recv) ∧
    ((t.rxExt, t.rxId, t.rxLen, t.rxData) ≠ (s.rxExt, s.rxId, s.rxLen, s.rxData) →
      e.IsReset ∨ e.IsDelivery) ∧
    (t.tx ≠ s.tx →
      e.IsReset ∨ (e.Runs (fun i => ∃ g l d, i = .send g l d) ∧ ∃ f, t.tx = s.tx ++ [f]))

/-! ### The assembler -/

/-- R61: a command line assembles to one transaction that decodes to the command with the operands as
written, exactly when every operand fits its field. -/
def Obligations.AssemblerWritesTheOperands : Prop :=
  (∀ dur : Nat, if dur < 2 ^ 32
    then ∃ c d, assembleLine (.lset dur) = some [.command c d] ∧ decode c d = .ok (.lset (BitVec.ofNat 32 dur))
    else assembleLine (.lset dur) = none) ∧
  (∀ mask pat : Nat, if mask < 2 ^ 16 ∧ pat < 2 ^ 16
    then ∃ c d, assembleLine (.freg mask pat) = some [.command c d] ∧
      decode c d = .ok (.freg (BitVec.ofNat 16 mask) (BitVec.ofNat 16 pat))
    else assembleLine (.freg mask pat) = none) ∧
  (∀ gid : Nat, if gid < 2 ^ 16
    then ∃ c d, assembleLine (.feval gid) = some [.command c d] ∧ decode c d = .ok (.feval (BitVec.ofNat 16 gid))
    else assembleLine (.feval gid) = none) ∧
  (∀ gid sid : Nat, if gid < 2 ^ 16 ∧ sid < 2 ^ 32
    then ∃ c d, assembleLine (.enc gid sid) = some [.command c d] ∧
      decode c d = .ok (.enc (BitVec.ofNat 16 gid) (BitVec.ofNat 32 sid))
    else assembleLine (.enc gid sid) = none) ∧
  (∀ (ext : Bool) (raw : Nat), if raw < 2 ^ 29
    then ∃ c d, assembleLine (.dec ext raw) = some [.command c d] ∧
      decode c d = .ok (.dec ext (BitVec.ofNat 29 raw))
    else assembleLine (.dec ext raw) = none) ∧
  (∀ (gid : Nat) (bytes : List Nat),
    if gid < 2 ^ 16 ∧ bytes.length ≤ 255 ∧ ∀ b ∈ bytes, b < 2 ^ 8
    then ∃ c d, assembleLine (.send gid bytes) = some [.command c d] ∧
      decode c d = .ok (.send (BitVec.ofNat 16 gid) (BitVec.ofNat 8 bytes.length) d) ∧
      ∀ k < 8, d.extractLsb' (8 * k) 8 = BitVec.ofNat 8 (bytes.getD k 0)
    else assembleLine (.send gid bytes) = none) ∧
  (∀ regno : Nat, if regno < 2 ^ 8
    then ∃ c d, assembleLine (.rdreg regno) = some [.command c d] ∧ decode c d = .ok (.rdreg (BitVec.ofNat 8 regno))
    else assembleLine (.rdreg regno) = none)

/-- R62: the expansions of the pseudo-instructions. -/
def Obligations.PseudoInstructionsExpand : Prop :=
  assembleLine .fpass = assembleLine .fclr ∧
  (∀ mask pat : Nat, assembleLine (.fonly mask pat) =
    ((assembleLine .fclr).bind fun a => (assembleLine (.freg mask pat)).map fun b => a ++ b)) ∧
  (∀ gid : Nat, assembleLine (.fexact gid) = assembleLine (.freg 0xFFFF gid))

/-- R64: what the harness directives stand for; an operand that does not fit is refused (R61). -/
def Obligations.DirectivesAreStepsOfTheOtherAgents : Prop :=
  (∀ id : Nat, assembleLine (.resetDirective id) =
    if id < 2 ^ 16 then some [.reset (BitVec.ofNat 16 id)] else none) ∧
  (∀ n : Nat, assembleLine (.tickDirective n) = some (List.replicate n .tick)) ∧
  (∀ (ext : Bool) (id : Nat) (bytes : List Nat),
    if id < 2 ^ 29 ∧ bytes.length ≤ 255 ∧ ∀ b ∈ bytes, b < 2 ^ 8
    then ∃ p : Payload,
      assembleLine (.rxDirective ext id bytes) =
        some [.deliver ext (BitVec.ofNat 29 id) (BitVec.ofNat 8 bytes.length) p] ∧
      ∀ k : Fin 8, p[k] = BitVec.ofNat 8 (bytes.getD k.val 0)
    else assembleLine (.rxDirective ext id bytes) = none)

/-- R96, its last sentence, in both directions: a run of `n` steps is reported as faulted exactly if it
reaches the halted state. The other two reports are the model's (log entry 10). -/
def Obligations.RunIsFaultedExactlyIfItReachesTheHaltedState : Prop :=
  ∀ (n : Nat) (s : State),
    let neverHalted := ∀ (m : Nat) (t : State), m ≤ n → runSteps m s = .next t → t.faulted = false
    (runReport n s = .faulted ↔
      ∃ (m : Nat) (t : State), m ≤ n ∧ runSteps m s = .next t ∧ t.faulted = true) ∧
    (runReport n s = .clean ↔ neverHalted ∧ ∃ t, runSteps n s = .next t) ∧
    (runReport n s = .refused ↔ neverHalted ∧ ∃ r, runSteps n s = .refused r)
end

