-- ==== Sys2Proof/Laws/Decode.lean ====
section
/-! SUPPORT. The reserved-field masks of R56 as fields of the command word, and what the decoder does with
a word of each opcode. -/

namespace Sys2Proof

/-- The bits of a mask of `len` ones from bit `lo` up. -/
theorem fieldMask_bits {m : Word64} {lo len : Nat} (h : m = (BitVec.allOnes len).setWidth 64 <<< lo)
    (hl : lo + len ≤ 64) (i : Nat) : m.getLsbD i = decide (lo ≤ i ∧ i < lo + len) := by
  subst h
  simp only [BitVec.getLsbD_shiftLeft, BitVec.getLsbD_setWidth, BitVec.getLsbD_allOnes]
  by_cases h1 : i < lo + len <;> by_cases h2 : lo ≤ i <;> simp [h1, h2] <;> omega

/-- A word is 0 under a mask of contiguous ones exactly when that field is 0. -/
theorem and_fieldMask_eq_zero {m : Word64} (lo len : Nat)
    (h : m = (BitVec.allOnes len).setWidth 64 <<< lo) (hl : lo + len ≤ 64) (c : Word64) :
    c &&& m = 0 ↔ c.extractLsb' lo len = 0 := by
  constructor
  · intro hc
    apply BitVec.eq_of_getLsbD_eq
    intro i hi
    have hb := congrArg (fun v => v.getLsbD (lo + i)) hc
    simp only [BitVec.getLsbD_and, fieldMask_bits h hl] at hb
    simpa [hi] using hb
  · intro hc
    apply BitVec.eq_of_getLsbD_eq
    intro i _
    simp only [BitVec.getLsbD_and, fieldMask_bits h hl]
    by_cases hi : lo ≤ i ∧ i < lo + len
    · have hb := congrArg (fun v => v.getLsbD (i - lo)) hc
      simp only [BitVec.getLsbD_extractLsb', show lo + (i - lo) = i by omega,
        show i - lo < len by omega] at hb
      simpa [hi] using hb
    · simp [hi]

/-- A word is 0 under the union of two masks exactly when it is 0 under both. -/
theorem and_or_eq_zero (c m n : Word64) : c &&& (m ||| n) = 0 ↔ c &&& m = 0 ∧ c &&& n = 0 := by
  rw [BitVec.and_or_distrib_left]
  exact BitVec.or_eq_zero_iff

/-- Format N reserves `CMD[59:0]` (R45). -/
theorem reserved_N (c : Word64) : c &&& reservedMask .N = 0 ↔ c.extractLsb' 0 60 = 0 :=
  and_fieldMask_eq_zero 0 60 (by decide) (by decide) c

/-- Format T reserves `CMD[59:32]` (R46). -/
theorem reserved_T (c : Word64) : c &&& reservedMask .T = 0 ↔ c.extractLsb' 32 28 = 0 :=
  and_fieldMask_eq_zero 32 28 (by decide) (by decide) c

/-- Format MP reserves `CMD[59:32]` (R47). -/
theorem reserved_MP (c : Word64) : c &&& reservedMask .MP = 0 ↔ c.extractLsb' 32 28 = 0 :=
  and_fieldMask_eq_zero 32 28 (by decide) (by decide) c

/-- Format G reserves `CMD[59:16]` (R48). -/
theorem reserved_G (c : Word64) : c &&& reservedMask .G = 0 ↔ c.extractLsb' 16 44 = 0 :=
  and_fieldMask_eq_zero 16 44 (by decide) (by decide) c

/-- Format GS reserves `CMD[59:48]` (R49). -/
theorem reserved_GS (c : Word64) : c &&& reservedMask .GS = 0 ↔ c.extractLsb' 48 12 = 0 :=
  and_fieldMask_eq_zero 48 12 (by decide) (by decide) c

/-- Format XR reserves `CMD[59:33]` and `CMD[31:29]` (R50). -/
theorem reserved_XR (c : Word64) :
    c &&& reservedMask .XR = 0 ↔ c.extractLsb' 33 27 = 0 ∧ c.extractLsb' 29 3 = 0 := by
  rw [show reservedMask .XR = 0x0FFFFFFE00000000#64 ||| 0xE0000000#64 by decide, and_or_eq_zero,
    and_fieldMask_eq_zero 33 27 (by decide) (by decide),
    and_fieldMask_eq_zero 29 3 (by decide) (by decide)]

/-- Format GL reserves `CMD[59:48]` and `CMD[31:8]` (R51). -/
theorem reserved_GL (c : Word64) :
    c &&& reservedMask .GL = 0 ↔ c.extractLsb' 48 12 = 0 ∧ c.extractLsb' 8 24 = 0 := by
  rw [show reservedMask .GL = 0x0FFF000000000000#64 ||| 0xFFFFFF00#64 by decide, and_or_eq_zero,
    and_fieldMask_eq_zero 48 12 (by decide) (by decide),
    and_fieldMask_eq_zero 8 24 (by decide) (by decide)]

/-- Format R reserves `CMD[59:8]` (R52). -/
theorem reserved_R (c : Word64) : c &&& reservedMask .R = 0 ↔ c.extractLsb' 8 52 = 0 :=
  and_fieldMask_eq_zero 8 52 (by decide) (by decide) c

/-- The check of the reserved bits answers the command or RESERVED_BITS (R56). -/
theorem ifReservedClear_cases (f : Format) (cmd : Word64) (i : Instr) :
    (cmd &&& reservedMask f = 0 ∧ ifReservedClear f cmd i = .ok i) ∨
    (cmd &&& reservedMask f ≠ 0 ∧ ifReservedClear f cmd i = .error .reservedBits) := by
  by_cases h : cmd &&& reservedMask f = 0
  · exact .inl ⟨h, if_pos h⟩
  · exact .inr ⟨h, if_neg h⟩

/-- The decoder on a word whose opcode is known: the opcode map alone selects the command (R54). -/
theorem decode_of_opcode {cmd : Word64} {o : BitVec 4} (h : cmd.extractLsb' 60 4 = o) (data : Word64) :
    decode cmd data =
      match o.toNat with
      | 0x0 => ifReservedClear .N cmd .nop
      | 0x1 => ifReservedClear .T cmd (.lset (durField cmd))
      | 0x2 => ifReservedClear .N cmd .lrtg
      | 0x3 => ifReservedClear .N cmd .lchk
      | 0x4 => ifReservedClear .N cmd .lqry
      | 0x5 => ifReservedClear .N cmd .fclr
      | 0x6 => ifReservedClear .MP cmd (.freg (maskField cmd) (patField cmd))
      | 0x7 => ifReservedClear .G cmd (.feval (gidLowField cmd))
      | 0x8 => ifReservedClear .N cmd .fcnt
      | 0x9 => ifReservedClear .GS cmd (.enc (gidHighField cmd) (sidField cmd))
      | 0xA => ifReservedClear .XR cmd (.dec (extField cmd) (rawField cmd))
      | 0xB => ifReservedClear .GL cmd (.send (gidHighField cmd) (lenField cmd) data)
      | 0xC => ifReservedClear .N cmd .recv
      | 0xD => ifReservedClear .R cmd (.rdreg (regnoField cmd))
      | _ => .error .illegalOpcode := by
  subst h; rfl

end Sys2Proof
end

