-- ==== Sys2Proof/Laws/State.lean ====
section
/-! SUPPORT. What each named update of the state leaves in every field it could change, and that it keeps
the others: one simp lemma per update, true by rfl. -/

namespace Sys2Proof.Machine

@[simp] theorem respond_fields (r : Word64) (s : State) :
    (respond r s).nodeId = s.nodeId ∧ (respond r s).lvDur = s.lvDur ∧ (respond r s).lvRem =
    s.lvRem ∧ (respond r s).lvAlive = s.lvAlive ∧ (respond r s).ftCount = s.ftCount ∧ (respond r
    s).ftSlots = s.ftSlots ∧ (respond r s).faulted = s.faulted ∧ (respond r s).cause = s.cause ∧
    (respond r s).fopc = s.fopc ∧ (respond r s).rxfGid = s.rxfGid ∧ (respond r s).rxfSid =
    s.rxfSid ∧ (respond r s).rxfLen = s.rxfLen ∧ (respond r s).rxfData = s.rxfData ∧ (respond r
    s).rxPend = s.rxPend ∧ (respond r s).rxExt = s.rxExt ∧ (respond r s).rxId = s.rxId ∧
    (respond r s).rxLen = s.rxLen ∧ (respond r s).rxData = s.rxData ∧ (respond r s).tx = s.tx ∧
    (respond r s).filterCapacity = s.filterCapacity ∧ (respond r s).pending = s.pending ∧
    (respond r s).responses = s.responses ++ [r] ∧ (respond r s).hostPos = s.hostPos ∧ (respond
    r s).resets = s.resets := by
  refine ⟨rfl, rfl, rfl, rfl, rfl, rfl, rfl, rfl, rfl, rfl, rfl, rfl, rfl, rfl, rfl, rfl, rfl, rfl, rfl, rfl, rfl, rfl, rfl, rfl⟩

@[simp] theorem arm_fields (dur : Word32) (s : State) :
    (arm dur s).nodeId = s.nodeId ∧ (arm dur s).lvDur = s.lvDur ∧ (arm dur s).lvRem = dur ∧ (arm
    dur s).lvAlive = true ∧ (arm dur s).ftCount = s.ftCount ∧ (arm dur s).ftSlots = s.ftSlots ∧
    (arm dur s).faulted = s.faulted ∧ (arm dur s).cause = s.cause ∧ (arm dur s).fopc = s.fopc ∧
    (arm dur s).rxfGid = s.rxfGid ∧ (arm dur s).rxfSid = s.rxfSid ∧ (arm dur s).rxfLen =
    s.rxfLen ∧ (arm dur s).rxfData = s.rxfData ∧ (arm dur s).rxPend = s.rxPend ∧ (arm dur
    s).rxExt = s.rxExt ∧ (arm dur s).rxId = s.rxId ∧ (arm dur s).rxLen = s.rxLen ∧ (arm dur
    s).rxData = s.rxData ∧ (arm dur s).tx = s.tx ∧ (arm dur s).filterCapacity = s.filterCapacity
    ∧ (arm dur s).pending = s.pending ∧ (arm dur s).responses = s.responses ∧ (arm dur
    s).hostPos = s.hostPos ∧ (arm dur s).resets = s.resets := by
  refine ⟨rfl, rfl, rfl, rfl, rfl, rfl, rfl, rfl, rfl, rfl, rfl, rfl, rfl, rfl, rfl, rfl, rfl, rfl, rfl, rfl, rfl, rfl, rfl, rfl⟩

@[simp] theorem applyCheck_fields (s : State) :
    (applyCheck s).nodeId = s.nodeId ∧ (applyCheck s).lvDur = s.lvDur ∧ (applyCheck s).lvRem =
    s.lvRem ∧ (applyCheck s).lvAlive = aliveAfterCheck s ∧ (applyCheck s).ftCount = s.ftCount ∧
    (applyCheck s).ftSlots = s.ftSlots ∧ (applyCheck s).faulted = s.faulted ∧ (applyCheck
    s).cause = s.cause ∧ (applyCheck s).fopc = s.fopc ∧ (applyCheck s).rxfGid = s.rxfGid ∧
    (applyCheck s).rxfSid = s.rxfSid ∧ (applyCheck s).rxfLen = s.rxfLen ∧ (applyCheck s).rxfData
    = s.rxfData ∧ (applyCheck s).rxPend = s.rxPend ∧ (applyCheck s).rxExt = s.rxExt ∧
    (applyCheck s).rxId = s.rxId ∧ (applyCheck s).rxLen = s.rxLen ∧ (applyCheck s).rxData =
    s.rxData ∧ (applyCheck s).tx = s.tx ∧ (applyCheck s).filterCapacity = s.filterCapacity ∧
    (applyCheck s).pending = s.pending ∧ (applyCheck s).responses = s.responses ∧ (applyCheck
    s).hostPos = s.hostPos ∧ (applyCheck s).resets = s.resets := by
  refine ⟨rfl, rfl, rfl, rfl, rfl, rfl, rfl, rfl, rfl, rfl, rfl, rfl, rfl, rfl, rfl, rfl, rfl, rfl, rfl, rfl, rfl, rfl, rfl, rfl⟩

@[simp] theorem storeFilter_fields (e : FilterEntry) (s : State) :
    (storeFilter e s).nodeId = s.nodeId ∧ (storeFilter e s).lvDur = s.lvDur ∧ (storeFilter e
    s).lvRem = s.lvRem ∧ (storeFilter e s).lvAlive = s.lvAlive ∧ (storeFilter e s).ftCount =
    s.ftCount + 1 ∧ (storeFilter e s).ftSlots = s.ftSlots.set s.ftCount.toNat e ∧ (storeFilter e
    s).faulted = s.faulted ∧ (storeFilter e s).cause = s.cause ∧ (storeFilter e s).fopc = s.fopc
    ∧ (storeFilter e s).rxfGid = s.rxfGid ∧ (storeFilter e s).rxfSid = s.rxfSid ∧ (storeFilter e
    s).rxfLen = s.rxfLen ∧ (storeFilter e s).rxfData = s.rxfData ∧ (storeFilter e s).rxPend =
    s.rxPend ∧ (storeFilter e s).rxExt = s.rxExt ∧ (storeFilter e s).rxId = s.rxId ∧
    (storeFilter e s).rxLen = s.rxLen ∧ (storeFilter e s).rxData = s.rxData ∧ (storeFilter e
    s).tx = s.tx ∧ (storeFilter e s).filterCapacity = s.filterCapacity ∧ (storeFilter e
    s).pending = s.pending ∧ (storeFilter e s).responses = s.responses ∧ (storeFilter e
    s).hostPos = s.hostPos ∧ (storeFilter e s).resets = s.resets := by
  refine ⟨rfl, rfl, rfl, rfl, rfl, rfl, rfl, rfl, rfl, rfl, rfl, rfl, rfl, rfl, rfl, rfl, rfl, rfl, rfl, rfl, rfl, rfl, rfl, rfl⟩

@[simp] theorem emitFrame_fields (f : TxFrame) (s : State) :
    (emitFrame f s).nodeId = s.nodeId ∧ (emitFrame f s).lvDur = s.lvDur ∧ (emitFrame f s).lvRem
    = s.lvRem ∧ (emitFrame f s).lvAlive = s.lvAlive ∧ (emitFrame f s).ftCount = s.ftCount ∧
    (emitFrame f s).ftSlots = s.ftSlots ∧ (emitFrame f s).faulted = s.faulted ∧ (emitFrame f
    s).cause = s.cause ∧ (emitFrame f s).fopc = s.fopc ∧ (emitFrame f s).rxfGid = s.rxfGid ∧
    (emitFrame f s).rxfSid = s.rxfSid ∧ (emitFrame f s).rxfLen = s.rxfLen ∧ (emitFrame f
    s).rxfData = s.rxfData ∧ (emitFrame f s).rxPend = s.rxPend ∧ (emitFrame f s).rxExt = s.rxExt
    ∧ (emitFrame f s).rxId = s.rxId ∧ (emitFrame f s).rxLen = s.rxLen ∧ (emitFrame f s).rxData =
    s.rxData ∧ (emitFrame f s).tx = s.tx ++ [f] ∧ (emitFrame f s).filterCapacity =
    s.filterCapacity ∧ (emitFrame f s).pending = s.pending ∧ (emitFrame f s).responses =
    s.responses ∧ (emitFrame f s).hostPos = s.hostPos ∧ (emitFrame f s).resets = s.resets := by
  refine ⟨rfl, rfl, rfl, rfl, rfl, rfl, rfl, rfl, rfl, rfl, rfl, rfl, rfl, rfl, rfl, rfl, rfl, rfl, rfl, rfl, rfl, rfl, rfl, rfl⟩

@[simp] theorem takeFrame_fields (g : GroupId) (i : BitVec 18) (s : State) :
    (takeFrame g i s).nodeId = s.nodeId ∧ (takeFrame g i s).lvDur = s.lvDur ∧ (takeFrame g i
    s).lvRem = s.lvRem ∧ (takeFrame g i s).lvAlive = s.lvAlive ∧ (takeFrame g i s).ftCount =
    s.ftCount ∧ (takeFrame g i s).ftSlots = s.ftSlots ∧ (takeFrame g i s).faulted = s.faulted ∧
    (takeFrame g i s).cause = s.cause ∧ (takeFrame g i s).fopc = s.fopc ∧ (takeFrame g i
    s).rxfGid = g ∧ (takeFrame g i s).rxfSid = i ∧ (takeFrame g i s).rxfLen = payloadCap s.rxLen
    ∧ (takeFrame g i s).rxfData = firstBytes s.rxData (payloadCap s.rxLen).toNat ∧ (takeFrame g
    i s).rxPend = false ∧ (takeFrame g i s).rxExt = s.rxExt ∧ (takeFrame g i s).rxId = s.rxId ∧
    (takeFrame g i s).rxLen = s.rxLen ∧ (takeFrame g i s).rxData = s.rxData ∧ (takeFrame g i
    s).tx = s.tx ∧ (takeFrame g i s).filterCapacity = s.filterCapacity ∧ (takeFrame g i
    s).pending = s.pending ∧ (takeFrame g i s).responses = s.responses ∧ (takeFrame g i
    s).hostPos = s.hostPos ∧ (takeFrame g i s).resets = s.resets := by
  refine ⟨rfl, rfl, rfl, rfl, rfl, rfl, rfl, rfl, rfl, rfl, rfl, rfl, rfl, rfl, rfl, rfl, rfl, rfl, rfl, rfl, rfl, rfl, rfl, rfl⟩

@[simp] theorem tick_fields (s : State) :
    (tick s).nodeId = s.nodeId ∧ (tick s).lvDur = s.lvDur ∧ (tick s).lvRem = (if s.lvRem = 0 then 0 else s.lvRem - 1) ∧ (tick s).lvAlive = s.lvAlive ∧ (tick s).ftCount = s.ftCount ∧ (tick
    s).ftSlots = s.ftSlots ∧ (tick s).faulted = s.faulted ∧ (tick s).cause = s.cause ∧ (tick
    s).fopc = s.fopc ∧ (tick s).rxfGid = s.rxfGid ∧ (tick s).rxfSid = s.rxfSid ∧ (tick s).rxfLen
    = s.rxfLen ∧ (tick s).rxfData = s.rxfData ∧ (tick s).rxPend = s.rxPend ∧ (tick s).rxExt =
    s.rxExt ∧ (tick s).rxId = s.rxId ∧ (tick s).rxLen = s.rxLen ∧ (tick s).rxData = s.rxData ∧
    (tick s).tx = s.tx ∧ (tick s).filterCapacity = s.filterCapacity ∧ (tick s).pending =
    s.pending ∧ (tick s).responses = s.responses ∧ (tick s).hostPos = s.hostPos ∧ (tick
    s).resets = s.resets := by
  refine ⟨rfl, rfl, rfl, rfl, rfl, rfl, rfl, rfl, rfl, rfl, rfl, rfl, rfl, rfl, rfl, rfl, rfl, rfl, rfl, rfl, rfl, rfl, rfl, rfl⟩

@[simp] theorem dropPending_fields (s : State) :
    (dropPending s).nodeId = s.nodeId ∧ (dropPending s).lvDur = s.lvDur ∧ (dropPending s).lvRem
    = s.lvRem ∧ (dropPending s).lvAlive = s.lvAlive ∧ (dropPending s).ftCount = s.ftCount ∧
    (dropPending s).ftSlots = s.ftSlots ∧ (dropPending s).faulted = s.faulted ∧ (dropPending
    s).cause = s.cause ∧ (dropPending s).fopc = s.fopc ∧ (dropPending s).rxfGid = s.rxfGid ∧
    (dropPending s).rxfSid = s.rxfSid ∧ (dropPending s).rxfLen = s.rxfLen ∧ (dropPending
    s).rxfData = s.rxfData ∧ (dropPending s).rxPend = s.rxPend ∧ (dropPending s).rxExt = s.rxExt
    ∧ (dropPending s).rxId = s.rxId ∧ (dropPending s).rxLen = s.rxLen ∧ (dropPending s).rxData =
    s.rxData ∧ (dropPending s).tx = s.tx ∧ (dropPending s).filterCapacity = s.filterCapacity ∧
    (dropPending s).pending = s.pending.tail ∧ (dropPending s).responses = s.responses ∧
    (dropPending s).hostPos = s.hostPos ∧ (dropPending s).resets = s.resets := by
  refine ⟨rfl, rfl, rfl, rfl, rfl, rfl, rfl, rfl, rfl, rfl, rfl, rfl, rfl, rfl, rfl, rfl, rfl, rfl, rfl, rfl, rfl, rfl, rfl, rfl⟩

@[simp] theorem advanceHost_fields (s : State) :
    (advanceHost s).nodeId = s.nodeId ∧ (advanceHost s).lvDur = s.lvDur ∧ (advanceHost s).lvRem
    = s.lvRem ∧ (advanceHost s).lvAlive = s.lvAlive ∧ (advanceHost s).ftCount = s.ftCount ∧
    (advanceHost s).ftSlots = s.ftSlots ∧ (advanceHost s).faulted = s.faulted ∧ (advanceHost
    s).cause = s.cause ∧ (advanceHost s).fopc = s.fopc ∧ (advanceHost s).rxfGid = s.rxfGid ∧
    (advanceHost s).rxfSid = s.rxfSid ∧ (advanceHost s).rxfLen = s.rxfLen ∧ (advanceHost
    s).rxfData = s.rxfData ∧ (advanceHost s).rxPend = s.rxPend ∧ (advanceHost s).rxExt = s.rxExt
    ∧ (advanceHost s).rxId = s.rxId ∧ (advanceHost s).rxLen = s.rxLen ∧ (advanceHost s).rxData =
    s.rxData ∧ (advanceHost s).tx = s.tx ∧ (advanceHost s).filterCapacity = s.filterCapacity ∧
    (advanceHost s).pending = s.pending ∧ (advanceHost s).responses = s.responses ∧ (advanceHost
    s).hostPos = s.hostPos + 1 ∧ (advanceHost s).resets = s.resets := by
  refine ⟨rfl, rfl, rfl, rfl, rfl, rfl, rfl, rfl, rfl, rfl, rfl, rfl, rfl, rfl, rfl, rfl, rfl, rfl, rfl, rfl, rfl, rfl, rfl, rfl⟩

@[simp] theorem State.withNext_fields (e : Event) (s : State) :
    (s.withNext e).nodeId = s.nodeId ∧ (s.withNext e).lvDur = s.lvDur ∧ (s.withNext e).lvRem =
    s.lvRem ∧ (s.withNext e).lvAlive = s.lvAlive ∧ (s.withNext e).ftCount = s.ftCount ∧
    (s.withNext e).ftSlots = s.ftSlots ∧ (s.withNext e).faulted = s.faulted ∧ (s.withNext
    e).cause = s.cause ∧ (s.withNext e).fopc = s.fopc ∧ (s.withNext e).rxfGid = s.rxfGid ∧
    (s.withNext e).rxfSid = s.rxfSid ∧ (s.withNext e).rxfLen = s.rxfLen ∧ (s.withNext e).rxfData
    = s.rxfData ∧ (s.withNext e).rxPend = s.rxPend ∧ (s.withNext e).rxExt = s.rxExt ∧
    (s.withNext e).rxId = s.rxId ∧ (s.withNext e).rxLen = s.rxLen ∧ (s.withNext e).rxData =
    s.rxData ∧ (s.withNext e).tx = s.tx ∧ (s.withNext e).filterCapacity = s.filterCapacity ∧
    (s.withNext e).pending = e :: s.pending ∧ (s.withNext e).responses = s.responses ∧
    (s.withNext e).hostPos = s.hostPos ∧ (s.withNext e).resets = s.resets := by
  refine ⟨rfl, rfl, rfl, rfl, rfl, rfl, rfl, rfl, rfl, rfl, rfl, rfl, rfl, rfl, rfl, rfl, rfl, rfl, rfl, rfl, rfl, rfl, rfl, rfl⟩

@[simp] theorem recordFault_fields (c : FaultCause) (o : BitVec 4) (s : State) :
    (recordFault c o s).nodeId = s.nodeId ∧ (recordFault c o s).lvDur = s.lvDur ∧ (recordFault c
    o s).lvRem = s.lvRem ∧ (recordFault c o s).lvAlive = s.lvAlive ∧ (recordFault c o s).ftCount
    = s.ftCount ∧ (recordFault c o s).ftSlots = s.ftSlots ∧ (recordFault c o s).faulted = true ∧
    (recordFault c o s).cause = (if s.faulted then s.cause else causeCode c) ∧ (recordFault c o
    s).fopc = (if s.faulted then s.fopc else o) ∧ (recordFault c o s).rxfGid = s.rxfGid ∧
    (recordFault c o s).rxfSid = s.rxfSid ∧ (recordFault c o s).rxfLen = s.rxfLen ∧ (recordFault
    c o s).rxfData = s.rxfData ∧ (recordFault c o s).rxPend = s.rxPend ∧ (recordFault c o
    s).rxExt = s.rxExt ∧ (recordFault c o s).rxId = s.rxId ∧ (recordFault c o s).rxLen = s.rxLen
    ∧ (recordFault c o s).rxData = s.rxData ∧ (recordFault c o s).tx = s.tx ∧ (recordFault c o
    s).filterCapacity = s.filterCapacity ∧ (recordFault c o s).pending = s.pending ∧
    (recordFault c o s).responses = s.responses ∧ (recordFault c o s).hostPos = s.hostPos ∧
    (recordFault c o s).resets = s.resets := by
  unfold recordFault
  split <;> simp_all

end Sys2Proof.Machine
end

