-- ==== Sys2Proof/Laws/Ops.lean ====
section
/-! SUPPORT. One lemma per shared operation that says everything it can do, for the proofs about commands
to cite. -/

namespace Sys2Proof.Machine

/-! ### The halted check and fault entry -/

/-- A running block goes past the halted check (R94). -/
theorem unlessHalted_running {s : State} (h : s.faulted = false) (opc : BitVec 4) (r : Result) :
    unlessHalted opc s r = r := by
  simp [unlessHalted, h]

/-- NOP and RDREG go past the halted check in every state (R96). -/
theorem unlessHalted_system {opc : BitVec 4} (h : runsWhileHalted opc = true) (s : State) (r : Result) :
    unlessHalted opc s r = r := by
  simp [unlessHalted, h]

/-- A halted block answers HALTED to every other command (R96). -/
theorem unlessHalted_halted {s : State} (h : s.faulted = true) {opc : BitVec 4}
    (ho : runsWhileHalted opc = false) (r : Result) :
    unlessHalted opc s r = .next (respond (haltedResponse s.cause) s) := by
  simp [unlessHalted, h, ho, complete]

/-- The halted check answers HALTED or runs the command (R59). -/
theorem unlessHalted_cases (opc : BitVec 4) (s : State) (r : Result) :
    (s.faulted = true ∧ runsWhileHalted opc = false ∧
      unlessHalted opc s r = .next (respond (haltedResponse s.cause) s)) ∨
    ((s.faulted = false ∨ runsWhileHalted opc = true) ∧ unlessHalted opc s r = r) := by
  cases hf : s.faulted
  · exact .inr ⟨.inl rfl, unlessHalted_running hf _ _⟩
  · cases ho : runsWhileHalted opc
    · exact .inl ⟨rfl, rfl, unlessHalted_halted hf ho _⟩
    · exact .inr ⟨.inr rfl, unlessHalted_system ho _ _⟩

/-- Only NOP and RDREG run while halted (R59). -/
theorem runsWhileHalted_iff (opc : BitVec 4) : runsWhileHalted opc = true ↔ opc = 0x0 ∨ opc = 0xD := by
  simp [runsWhileHalted]

/-- Fault entry completes with STATUS FAULT and only the fault register written (R95). -/
theorem raiseFault_eq (c : FaultCause) (opc : BitVec 4) (s : State) :
    raiseFault c opc s = .next (respond (faultResponse (causeCode c)) (recordFault c opc s)) := rfl

/-- A fault in the halted state keeps the first cause (R97). -/
theorem recordFault_halted {s : State} (h : s.faulted = true) (c : FaultCause) (opc : BitVec 4) :
    recordFault c opc s = s := by
  simp [recordFault, h]

/-! ### The agents other than the host -/

/-- The delivery step fills an empty latch, or does not exist (R84). -/
theorem deliver_cases (ext : Bool) (id : ArbId) (n : BitVec 8) (bytes : Payload) (s : State) :
    (s.rxPend = true ∧ deliver ext id n bytes s = .refused .deliveryIntoFullLatch) ∨
    (s.rxPend = false ∧ deliver ext id n bytes s =
      .next { s with
        rxPend := true, rxExt := ext, rxId := id, rxLen := n,
        rxData := firstBytes bytes (payloadCap n).toNat }) := by
  cases h : s.rxPend <;> simp [deliver, h]

/-- A tick is a saturating decrement of `LV_REM` (R65). -/
theorem tick_lvRem_toNat (s : State) : (tick s).lvRem.toNat = s.lvRem.toNat - 1 := by
  simp only [tick_fields]
  split
  · simp_all
  · next h => exact BitVec.toNat_sub_of_le (by
      have : s.lvRem.toNat ≠ 0 := fun h0 => h (BitVec.eq_of_toNat_eq (by simpa using h0))
      show (1#32).toNat ≤ s.lvRem.toNat
      simp; omega)

/-! ### Payload bytes -/

/-- Byte k of a payload built from a function (R24). -/
theorem payloadByte_payloadOf (f : Nat → Byte) {k : Nat} (h : k < 8) : payloadByte (payloadOf f) k = f k := by
  match k, h with
  | 0, _ | 1, _ | 2, _ | 3, _ | 4, _ | 5, _ | 6, _ | 7, _ => rfl

/-- The capped length is at most 8 and is `min(n, 8)` (R80). -/
theorem payloadCap_toNat (n : BitVec 8) : (payloadCap n).toNat = min n.toNat 8 := by
  unfold payloadCap
  split
  · next h => rw [BitVec.toNat_setWidth]; omega
  · next h => simp; omega

/-- The bytes from the cut on are 0, the ones before it are kept (R84, R87). -/
theorem payloadByte_firstBytes (p : Payload) (n : Nat) {k : Nat} (h : k < 8) :
    payloadByte (firstBytes p n) k = if k < n then payloadByte p k else 0 :=
  payloadByte_payloadOf _ h

/-- SEND transmits `min(LEN, 8)` bytes (R86). -/
theorem sendBytes_length (data : Word64) (len : BitVec 8) :
    (sendBytes data len).length = min len.toNat 8 := by
  simp [sendBytes, payloadCap_toNat]

/-! ### The codec and the filter -/

/-- Unpacking gives the two fields, the standard id, or nothing (R79). -/
theorem codecDecode_cases (ext : Bool) (raw : ArbId) :
    (ext = true ∧ codecDecode ext raw =
      some ((raw.extractLsb' 18 11).setWidth 16, raw.extractLsb' 0 18)) ∨
    (ext = false ∧ raw.toNat < 0x800 ∧ codecDecode ext raw = some ((raw.extractLsb' 0 11).setWidth 16, 0)) ∨
    (ext = false ∧ 0x800 ≤ raw.toNat ∧ codecDecode ext raw = none) := by
  cases ext
  · by_cases h : raw.toNat < 0x800
    · exact .inr (.inl ⟨rfl, h, by simp [codecDecode, h]⟩)
    · exact .inr (.inr ⟨rfl, by omega, by simp [codecDecode, h]⟩)
  · exact .inl ⟨rfl, by simp [codecDecode]⟩

/-- The scan ends at the first entry that matches, or finds none (R72). -/
theorem firstMatch_cases (g : GroupId) (l : List FilterEntry) :
    (∃ e ∈ l, entryMatches g e = true ∧ firstMatch g l = (true, e.pat)) ∨
    ((∀ e ∈ l, entryMatches g e = false) ∧ firstMatch g l = (false, 0)) := by
  induction l with
  | nil => exact .inr ⟨by simp, rfl⟩
  | cons e rest ih =>
    by_cases h : entryMatches g e = true
    · exact .inl ⟨e, by simp, h, by simp [firstMatch, h]⟩
    · have hf : entryMatches g e = false := by simpa using h
      obtain ⟨e', he', hm, hv⟩ | ⟨hn, hv⟩ := ih
      · exact .inl ⟨e', by simp [he'], hm, by simp [firstMatch, hf, hv]⟩
      · exact .inr ⟨by simpa [hf] using hn, by simp [firstMatch, hf, hv]⟩

/-- An entry matches exactly when the masked group-id is its pattern (R72). -/
theorem entryMatches_iff (g : GroupId) (e : FilterEntry) :
    entryMatches g e = true ↔ g &&& e.mask = e.pat := by
  simp [entryMatches]

/-! ### The step -/

/-- With nothing pending the machine waits (log entry 1). -/
theorem step_idle {s : State} (h : s.pending = []) : step s = .next s := by simp [step, h]

/-- A pending command is executed by the step of R59. -/
theorem step_command (s : State) (cmd data : Word64) :
    step (s.withNext (.command cmd data)) = stepCommand cmd data (advanceHost s) := rfl

/-- A pending tick ticks (R65). -/
theorem step_tick (s : State) : step (s.withNext .tick) = .next (tick s) := rfl

/-- A pending delivery delivers (R84). -/
theorem step_deliver (s : State) (ext : Bool) (id : ArbId) (n : BitVec 8) (bytes : Payload) :
    step (s.withNext (.deliver ext id n bytes)) = deliver ext id n bytes s := rfl

/-- A pending reset resets (R106). -/
theorem step_reset (s : State) (id : BitVec 16) :
    step (s.withNext (.reset id)) = .next (resetBlock id s) := rfl

/-- A state with a pending step is one that step was put before. -/
theorem withNext_of_pending {s : State} {e : Event} {rest : List Event} (h : s.pending = e :: rest) :
    s = ({ s with pending := rest } : State).withNext e := by
  cases s; simp_all [State.withNext]

end Sys2Proof.Machine
end

