-- ==== Sys2Proof/Laws/Safety.lean ====
section
/-! SUPPORT. The shared operations in the words of Safety: fault entry and HALTED as `faultEntered` and
`haltedAnswer`, and what every command does in a halted block. -/

namespace Sys2Proof.Machine

/-- Fault entry gives the state `faultEntered` names (R95, R97). -/
theorem raiseFault_faultEntered (c : FaultCause) (opc : BitVec 4) (s : State) :
    raiseFault c opc s = .next (s.faultEntered (causeCode c) opc) := by
  rw [raiseFault_eq]
  unfold recordFault
  cases h : s.faulted <;> simp [respond, faultResponse, State.faultEntered, h]

/-- The HALTED response is the one `haltedAnswer` names (R96). -/
theorem respond_haltedResponse (s : State) : respond (haltedResponse s.cause) s = s.haltedAnswer := rfl

/-- A halted block answers HALTED to every command but NOP and RDREG (R96). -/
theorem exec_halted {s : State} (h : s.faulted = true) {i : Instr}
    (hi : runsWhileHalted (opcodeOf i) = false) : exec i s = .next s.haltedAnswer := by
  rw [← respond_haltedResponse]
  cases i <;> exact unlessHalted_halted h hi _

end Sys2Proof.Machine
end

