-- ==== Sys2Proof/Laws/Exec.lean ====
section
/-! SUPPORT. Everything a command and a step can do, said once: an inversion of `exec` and one of `step`, for
the proofs over all commands and all steps to cite. -/

namespace Sys2Proof.Machine

/-- `Executes i s t`: the command `i` takes the state `s` to `t`, by which of its cases. -/
inductive Executes : Instr → State → State → Prop
  /-- HALTED: the block is faulted and the command is neither NOP nor RDREG (R96). -/
  | halted {i s} (hf : s.faulted = true) (hi : runsWhileHalted (opcodeOf i) = false) :
      Executes i s s.haltedAnswer
  | nop {s} : Executes .nop s (respond okResponse s)
  | lset {dur s} (hf : s.faulted = false) :
      Executes (.lset dur) s (respond okResponse (arm dur { s with lvDur := dur }))
  | lrtg {s} (hf : s.faulted = false) : Executes .lrtg s (respond okResponse (arm s.lvDur s))
  | lchk {s} (hf : s.faulted = false) :
      Executes .lchk s (respond (aliveResponse (aliveAfterCheck s)) (applyCheck s))
  | lqry {s} (hf : s.faulted = false) : Executes .lqry s (respond (aliveResponse s.lvAlive) s)
  | fclr {s} (hf : s.faulted = false) : Executes .fclr s (respond okResponse { s with ftCount := 0 })
  | fregStored {mask pat s} (hf : s.faulted = false) (hr : tableHasRoom s = true) :
      Executes (.freg mask pat) s
        (respond (fregResponse (nonempty (s.ftCount + 1)) true (s.ftCount + 1))
          (storeFilter ⟨mask, pat⟩ s))
  | fregDropped {mask pat s} (hf : s.faulted = false) (hr : tableHasRoom s = false) :
      Executes (.freg mask pat) s (respond (fregResponse (nonempty s.ftCount) false s.ftCount) s)
  | feval {gid s} (hf : s.faulted = false) :
      Executes (.feval gid) s (respond (fevalResponse (filterEval s gid).1 (filterEval s gid).2) s)
  | fcnt {s} (hf : s.faulted = false) : Executes .fcnt s (respond (fcntResponse s.ftCount) s)
  | enc {gid sid s} (hf : s.faulted = false) :
      Executes (.enc gid sid) s (respond (encResponse (codecEncode gid sid)) s)
  | dec {ext raw g i s} (hf : s.faulted = false) (hd : codecDecode ext raw = some (g, i)) :
      Executes (.dec ext raw) s (respond (decResponse g i) s)
  | decFault {ext raw s} (hf : s.faulted = false) (hd : codecDecode ext raw = none) :
      Executes (.dec ext raw) s (s.faultEntered 0x03 0xA)
  | send {gid len data s} (hf : s.faulted = false) :
      Executes (.send gid len data) s
        (respond (sendResponse (payloadCap len) (codecEncode gid (s.nodeId.setWidth 32)))
          (emitFrame (sendFrame gid len data s) s))
  | recvNoFrame {s} (hf : s.faulted = false) (hp : s.rxPend = false) :
      Executes .recv s (respond (recvResponse 0 0) (applyCheck s))
  | recvFrame {g i s} (hf : s.faulted = false) (hp : s.rxPend = true)
      (hd : codecDecode s.rxExt s.rxId = some (g, i)) :
      Executes .recv s
        (respond (recvResponse (recvKind (filterEval s g).1) (filterEval s g).2)
          (takeFrame g i (arm s.lvDur (applyCheck s))))
  | recvFault {s} (hf : s.faulted = false) (hp : s.rxPend = true)
      (hd : codecDecode s.rxExt s.rxId = none) :
      Executes .recv s (s.faultEntered 0x03 0xC)
  | rdreg {regno v s} (hr : readRegister regno s = some v) :
      Executes (.rdreg regno) s (respond (rdregResponse v) s)
  | rdregFault {regno s} (hr : readRegister regno s = none) :
      Executes (.rdreg regno) s (s.faultEntered 0x04 0xD)

/-- Every command in every state answers a next state, by one of its cases (R10). -/
theorem exec_executes (i : Instr) (s : State) : ∃ t, exec i s = .next t ∧ Executes i s t := by
  by_cases hh : s.faulted = true ∧ runsWhileHalted (opcodeOf i) = false
  · exact ⟨_, exec_halted hh.1 hh.2, .halted hh.1 hh.2⟩
  have hf : runsWhileHalted (opcodeOf i) = false → s.faulted = false := by
    intro h; cases hs : s.faulted
    · rfl
    · exact absurd ⟨hs, h⟩ hh
  cases i with
  | nop => exact ⟨_, unlessHalted_system rfl s _, .nop⟩
  | lset dur => exact ⟨_, unlessHalted_running (hf rfl) _ _, .lset (hf rfl)⟩
  | lrtg => exact ⟨_, unlessHalted_running (hf rfl) _ _, .lrtg (hf rfl)⟩
  | lchk => exact ⟨_, unlessHalted_running (hf rfl) _ _, .lchk (hf rfl)⟩
  | lqry => exact ⟨_, unlessHalted_running (hf rfl) _ _, .lqry (hf rfl)⟩
  | fclr => exact ⟨_, unlessHalted_running (hf rfl) _ _, .fclr (hf rfl)⟩
  | freg mask pat =>
    cases hr : tableHasRoom s
    · exact ⟨_, (unlessHalted_running (hf rfl) _ _).trans (if_neg (by simp [hr])), .fregDropped (hf rfl) hr⟩
    · exact ⟨_, (unlessHalted_running (hf rfl) _ _).trans (if_pos hr), .fregStored (hf rfl) hr⟩
  | feval gid => exact ⟨_, unlessHalted_running (hf rfl) _ _, .feval (hf rfl)⟩
  | fcnt => exact ⟨_, unlessHalted_running (hf rfl) _ _, .fcnt (hf rfl)⟩
  | enc gid sid => exact ⟨_, unlessHalted_running (hf rfl) _ _, .enc (hf rfl)⟩
  | dec ext raw =>
    cases hd : codecDecode ext raw with
    | none =>
      refine ⟨_, ?_, .decFault (hf rfl) hd⟩
      simp only [exec, execDec, unlessHalted_running (hf rfl), hd, raiseFault_faultEntered]; rfl
    | some gi =>
      refine ⟨_, ?_, .dec (hf rfl) (g := gi.1) (i := gi.2) hd⟩
      simp only [exec, execDec, unlessHalted_running (hf rfl), hd]; rfl
  | send gid len data => exact ⟨_, unlessHalted_running (hf rfl) _ _, .send (hf rfl)⟩
  | recv =>
    cases hp : s.rxPend
    · refine ⟨_, ?_, .recvNoFrame (hf rfl) hp⟩
      simp only [exec, execRecv, unlessHalted_running (hf rfl), hp]; rfl
    · cases hd : codecDecode s.rxExt s.rxId with
      | none =>
        refine ⟨_, ?_, .recvFault (hf rfl) hp hd⟩
        simp only [exec, execRecv, unlessHalted_running (hf rfl), hp, if_true, hd, raiseFault_faultEntered]; rfl
      | some gi =>
        refine ⟨_, ?_, .recvFrame (hf rfl) hp (g := gi.1) (i := gi.2) hd⟩
        simp only [exec, execRecv, unlessHalted_running (hf rfl), hp, if_true, hd]; rfl
  | rdreg regno =>
    cases hr : readRegister regno s with
    | none =>
      refine ⟨_, ?_, .rdregFault hr⟩
      simp only [exec, execRdreg, unlessHalted_system (opc := 0xD) rfl, hr, raiseFault_faultEntered]; rfl
    | some v =>
      refine ⟨_, ?_, .rdreg hr⟩
      simp only [exec, execRdreg, unlessHalted_system (opc := 0xD) rfl, hr]; rfl

/-- What a command did, from the next state it answered. -/
theorem executes_of_exec {i : Instr} {s t : State} (h : exec i s = .next t) : Executes i s t := by
  obtain ⟨t', h', he⟩ := exec_executes i s
  rw [h] at h'
  cases h'
  exact he

/-- A word that does not decode: HALTED, or the fault with the word's opcode (R59, R95, R96). -/
theorem rejectCommand_eq (c : FaultCause) (cmd : Word64) (s : State) :
    rejectCommand c cmd s =
      if s.faulted = true ∧ runsWhileHalted (opcodeField cmd) = false then .next s.haltedAnswer
      else .next (s.faultEntered (causeCode c) (opcodeField cmd)) := by
  unfold rejectCommand
  obtain ⟨h1, h2, h⟩ | ⟨h1, h⟩ := unlessHalted_cases (opcodeField cmd) s
    (raiseFault c (opcodeField cmd) s)
  · rw [h, if_pos ⟨h1, h2⟩]; rfl
  · rw [h, if_neg, raiseFault_faultEntered]
    rintro ⟨h3, h4⟩
    rcases h1 with h1 | h1
    · rw [h3] at h1; cases h1
    · rw [h4] at h1; cases h1

/-- `Steps s t`: one step takes `s` to `t`, by which agent's step. The first state is written with its
pending step in front, and `s` is the state from which that step has been taken out. -/
inductive Steps : State → State → Prop
  /-- Nothing is pending (log entry 1). -/
  | idle {s : State} (hp : s.pending = []) : Steps s s
  | command {s : State} {cmd data i t} (hd : decode cmd data = .ok i) (he : Executes i s.accepted t) :
      Steps (s.withNext (.command cmd data)) t
  | halted {s : State} {cmd data c} (hd : decode cmd data = .error c) (hf : s.faulted = true)
      (ho : runsWhileHalted (opcodeField cmd) = false) :
      Steps (s.withNext (.command cmd data)) s.accepted.haltedAnswer
  | rejected {s : State} {cmd data c} (hd : decode cmd data = .error c)
      (ho : s.faulted = false ∨ runsWhileHalted (opcodeField cmd) = true) :
      Steps (s.withNext (.command cmd data)) (s.accepted.faultEntered (causeCode c) (opcodeField cmd))
  | tick {s : State} : Steps (s.withNext .tick) (tick s)
  | deliver {s : State} {ext id n bytes} (hp : s.rxPend = false) :
      Steps (s.withNext (.deliver ext id n bytes))
        { s with
          rxPend := true, rxExt := ext, rxId := id, rxLen := n,
          rxData := firstBytes bytes (payloadCap n).toNat }
  | reset {s : State} {id} : Steps (s.withNext (.reset id)) (resetBlock id s)

/-- A step is a next state by one of these cases, or the refusal of a delivery into a full latch. -/
theorem step_cases (s : State) :
    (∃ t, step s = .next t ∧ Steps s t) ∨
    (s.rxPend = true ∧ (∃ ext id n bytes rest, s.pending = .deliver ext id n bytes :: rest) ∧
      step s = .refused .deliveryIntoFullLatch) := by
  cases hp : s.pending with
  | nil => exact .inl ⟨s, step_idle hp, .idle hp⟩
  | cons e rest =>
    have hs := withNext_of_pending hp
    generalize hs0 : ({ s with pending := rest } : State) = s0 at hs
    cases e with
    | command cmd data =>
      left
      rw [hs, step_command, stepCommand]
      cases hd : decode cmd data with
      | ok i =>
        obtain ⟨t, ht, he⟩ := exec_executes i s0.accepted
        exact ⟨t, ht, .command hd he⟩
      | error c =>
        simp only [rejectCommand_eq]
        by_cases hh : s0.faulted = true ∧ runsWhileHalted (opcodeField cmd) = false
        · exact ⟨_, if_pos hh, .halted hd hh.1 hh.2⟩
        · refine ⟨_, if_neg hh, .rejected hd ?_⟩
          cases hf : s0.faulted
          · exact .inl rfl
          · right; cases hr : runsWhileHalted (opcodeField cmd)
            · exact absurd ⟨hf, hr⟩ hh
            · rfl
    | tick => exact .inl ⟨_, by rw [hs, step_tick], by rw [hs]; exact .tick⟩
    | deliver ext id n bytes =>
      obtain ⟨h1, h2⟩ | ⟨h1, h2⟩ := deliver_cases ext id n bytes s0
      · refine .inr ⟨?_, ⟨ext, id, n, bytes, rest, rfl⟩, ?_⟩
        · rw [hs]; simpa using h1
        · rw [hs, step_deliver, h2]
      · exact .inl ⟨_, by rw [hs, step_deliver, h2], by rw [hs]; exact .deliver h1⟩
    | reset id => exact .inl ⟨_, by rw [hs, step_reset], by rw [hs]; exact .reset⟩

/-- What a step did, from the next state it answered. -/
theorem steps_of_step {s t : State} (h : step s = .next t) : Steps s t := by
  obtain ⟨t', h', hs⟩ | ⟨_, _, h'⟩ := step_cases s
  · rw [h] at h'; cases h'; exact hs
  · rw [h] at h'; cases h'

end Sys2Proof.Machine
end

