-- ==== Sys2Proof/Laws/PerInstr.lean ====
section
/-! SUPPORT. A family of statements about each command as syntax: its encoding is a word of the opcode map
with the command's own opcode (R44, R54). -/

namespace Sys2Proof.Laws.EncodesLegally

/-- The encoder writes the command's opcode, and every reserved bit of its format as 0. -/
def Statement (i : Instr) : Prop :=
  opcodeField (encodeCmd i) = opcodeOf i ∧ wellFormedWord (encodeCmd i) = true

/-- The opcode field of a word with that opcode on top (R44). -/
theorem opcodeField_append (o : BitVec 4) (x : BitVec 60) : opcodeField (o ++ x) = o := by
  apply BitVec.eq_of_getLsbD_eq
  intro i hi
  have h : (o ++ x).getLsbD (60 + i) = o.getLsbD i := by rw [BitVec.getLsbD_append]; simp
  simpa [opcodeField, hi] using h

/-- A word is well-formed when a row of the opcode map covers it. -/
theorem wellFormed_of_row {cmd : Word64} (r : OpcodeRow) (hr : r ∈ opcodeTable)
    (h : cmd &&& r.mask = r.value) : wellFormedWord cmd = true := by
  simp only [wellFormedWord, List.any_eq_true]
  exact ⟨r, hr, by simp [OpcodeRow.covers, h]⟩

theorem nop : Statement .nop := ⟨by decide, by decide⟩
theorem lrtg : Statement .lrtg := ⟨by decide, by decide⟩
theorem lchk : Statement .lchk := ⟨by decide, by decide⟩
theorem lqry : Statement .lqry := ⟨by decide, by decide⟩
theorem fclr : Statement .fclr := ⟨by decide, by decide⟩
theorem fcnt : Statement .fcnt := ⟨by decide, by decide⟩
theorem recv : Statement .recv := ⟨by decide, by decide⟩

theorem lset (dur : Word32) : Statement (.lset dur) := by
  refine ⟨opcodeField_append _ _, wellFormed_of_row ⟨"LSET", 0x1000000000000000, 0xFFFFFFFF00000000⟩ (by decide) ?_⟩
  show 0x1#4 ++ (0#28 ++ dur) &&& (0xF#4 ++ (0xFFFFFFF#28 ++ 0#32)) =
    0x1#4 ++ (0#28 ++ 0#32)
  rw [BitVec.and_append, BitVec.and_append]
  simp

theorem freg (mask pat : BitVec 16) : Statement (.freg mask pat) := by
  refine ⟨opcodeField_append _ _, wellFormed_of_row ⟨"FREG", 0x6000000000000000, 0xFFFFFFFF00000000⟩ (by decide) ?_⟩
  show 0x6#4 ++ (0#28 ++ mask ++ pat) &&& (0xF#4 ++ (0xFFFFFFF#28 ++ 0#16 ++ 0#16)) =
    0x6#4 ++ (0#28 ++ 0#16 ++ 0#16)
  rw [BitVec.and_append, BitVec.and_append, BitVec.and_append]
  simp

theorem feval (gid : GroupId) : Statement (.feval gid) := by
  refine ⟨opcodeField_append _ _, wellFormed_of_row ⟨"FEVAL", 0x7000000000000000, 0xFFFFFFFFFFFF0000⟩ (by decide) ?_⟩
  show 0x7#4 ++ (0#44 ++ gid) &&& (0xF#4 ++ (0xFFFFFFFFFFF#44 ++ 0#16)) =
    0x7#4 ++ (0#44 ++ 0#16)
  rw [BitVec.and_append, BitVec.and_append]
  simp

theorem enc (gid : GroupId) (sid : BitVec 32) : Statement (.enc gid sid) := by
  refine ⟨opcodeField_append _ _, wellFormed_of_row ⟨"ENC", 0x9000000000000000, 0xFFFF000000000000⟩ (by decide) ?_⟩
  show 0x9#4 ++ (0#12 ++ gid ++ sid) &&& (0xF#4 ++ (0xFFF#12 ++ 0#16 ++ 0#32)) =
    0x9#4 ++ (0#12 ++ 0#16 ++ 0#32)
  rw [BitVec.and_append, BitVec.and_append, BitVec.and_append]
  simp

theorem dec (ext : Bool) (raw : ArbId) : Statement (.dec ext raw) := by
  refine ⟨opcodeField_append _ _, wellFormed_of_row ⟨"DEC", 0xA000000000000000, 0xFFFFFFFEE0000000⟩ (by decide) ?_⟩
  show 0xA#4 ++ (0#27 ++ BitVec.ofBool ext ++ 0#3 ++ raw) &&& (0xF#4 ++ (0x7FFFFFF#27 ++ 0#1 ++ 0x7#3 ++ 0#29)) =
    0xA#4 ++ (0#27 ++ 0#1 ++ 0#3 ++ 0#29)
  rw [BitVec.and_append, BitVec.and_append, BitVec.and_append, BitVec.and_append]
  simp

theorem send (gid : GroupId) (len : BitVec 8) (data : Word64) : Statement (.send gid len data) := by
  refine ⟨opcodeField_append _ _, wellFormed_of_row ⟨"SEND", 0xB000000000000000, 0xFFFF0000FFFFFF00⟩ (by decide) ?_⟩
  show 0xB#4 ++ (0#12 ++ gid ++ 0#24 ++ len) &&& (0xF#4 ++ (0xFFF#12 ++ 0#16 ++ 0xFFFFFF#24 ++ 0#8)) =
    0xB#4 ++ (0#12 ++ 0#16 ++ 0#24 ++ 0#8)
  rw [BitVec.and_append, BitVec.and_append, BitVec.and_append, BitVec.and_append]
  simp

theorem rdreg (regno : BitVec 8) : Statement (.rdreg regno) := by
  refine ⟨opcodeField_append _ _, wellFormed_of_row ⟨"RDREG", 0xD000000000000000, 0xFFFFFFFFFFFFFF00⟩ (by decide) ?_⟩
  show 0xD#4 ++ (0#52 ++ regno) &&& (0xF#4 ++ (0xFFFFFFFFFFFFF#52 ++ 0#8)) =
    0xD#4 ++ (0#52 ++ 0#8)
  rw [BitVec.and_append, BitVec.and_append]
  simp

end Sys2Proof.Laws.EncodesLegally
end

