-- ==== Sys2Proof/Laws/Run.lean ====
section
/-! SUPPORT. Runs and their reports, one step at a time. -/

namespace Sys2Proof.Machine

/-- A run of no steps stays where it is. -/
@[simp] theorem runSteps_zero (s : State) : runSteps 0 s = .next s := rfl

/-- A run goes on from the state its first step gives. -/
theorem runSteps_succ_next {s t : State} (h : step s = .next t) (n : Nat) :
    runSteps (n + 1) s = runSteps n t := by
  simp [runSteps, h]

/-- A run stops at a refused first step. -/
theorem runSteps_succ_refused {s : State} {r : Refusal} (h : step s = .refused r) (n : Nat) :
    runSteps (n + 1) s = .refused r := by
  simp [runSteps, h]

/-- A run from the halted state is reported as faulted, whatever its steps (R96). -/
theorem runReport_of_faulted {s : State} (h : s.faulted = true) (n : Nat) :
    runReport n s = .faulted := by
  cases n <;> simp [runReport, h]

/-- From a state that is not halted, the report is that of the rest of the run. -/
theorem runReport_succ_next {s t : State} (hf : s.faulted = false) (h : step s = .next t) (n : Nat) :
    runReport (n + 1) s = runReport n t := by
  simp [runReport, hf, h]

/-- From a state that is not halted, a refused first step is reported as such. -/
theorem runReport_succ_refused {s : State} {r : Refusal} (hf : s.faulted = false)
    (h : step s = .refused r) (n : Nat) : runReport (n + 1) s = .refused := by
  simp [runReport, hf, h]

end Sys2Proof.Machine
end

