-- ==== Sys2Proof/Tests/Slice0.lean ====
section
/-! SUPPORT. Tests with expected results from spec/95_test_vectors.md (entries L1, vectors V1 to V82) or
written out from the encodings of R45 to R52, and a witness for the hypotheses of every obligation. -/

namespace Sys2Proof.Tests

open Sys2Proof.Machine

/-! ### Helpers -/

/-- A block with concrete values where `State.reset` has open parameters: `NODE_ID` = 0xBEEF, a timeout
of 5 ticks, ten slots of zeros. -/
def ready : State :=
  { State.reset with nodeId := 0xBEEF, lvDur := 5, lvRem := 5, ftSlots := List.replicate 10 ⟨0, 0⟩ }

/-- The block halted by STD_ID_RANGE in RECV. -/
def halted : State := { ready with faulted := true, cause := 0x03, fopc := 0xC }

/-- The block whose countdown has `rem` ticks left and whose stored state is `alive`. -/
def withTimer (dur rem : Word32) (alive : Bool) : State :=
  { ready with lvDur := dur, lvRem := rem, lvAlive := alive }

/-- The block with a full table: entry k is (0xFFFF, k). -/
def fullTable : State :=
  { ready with ftCount := 10, ftSlots := (List.range 10).map fun k => ⟨0xFFFF, BitVec.ofNat 16 (k + 1)⟩ }

/-- The block with the three entries of V25. -/
def threeEntries : State :=
  { ready with
    ftCount := 3,
    ftSlots := [⟨0x0F, 0x01⟩, ⟨0xFF, 0x11⟩, ⟨0x700, 0x700⟩] ++ List.replicate 7 ⟨0, 0⟩ }

/-- The block with a frame of one byte in the latch. -/
def framePending (ext : Bool) (id : ArbId) (s : State) : State :=
  { s with rxPend := true, rxExt := ext, rxId := id, rxLen := 1, rxData := #v[0x5A, 0, 0, 0, 0, 0, 0, 0] }

/-- What `f` sees of the next state, if there is one. -/
def observe {α : Type} (f : State → α) : Result → Option α
  | .next s => some (f s)
  | _ => none

/-- One host command on this state. -/
def run (cmd data : Word64) (s : State) : Result := step (s.withNext (.command cmd data))

/-- The fault register with the last response. -/
def faultView (s : State) : Option Word64 × Bool × BitVec 8 × BitVec 4 :=
  (s.responses.getLast?, s.faulted, s.cause, s.fopc)

/-- The three liveness registers with the responses. -/
def livenessView (s : State) : List Word64 × Word32 × Word32 × Bool :=
  (s.responses, s.lvDur, s.lvRem, s.lvAlive)

/-- What the decoder reads, as an option. -/
def decoded (cmd data : Word64) : Option Instr :=
  match decode cmd data with
  | .ok i => some i
  | .error _ => none

/-! ### Well-formedness: an ill-formed term for each check -/

theorem test_wellFormed_refuses_illegal_opcodes :
    wellFormedWord 0xE000000000000000 = false ∧ wellFormedWord 0xF000000000000000 = false := by decide

/-- Format N, at both ends of its reserved field. -/
theorem test_wellFormed_refuses_reserved_N :
    ∀ opc ∈ [0x0#4, 0x2#4, 0x3#4, 0x4#4, 0x5#4, 0x8#4, 0xC#4],
      wellFormedWord (opc ++ 1#60) = false ∧ wellFormedWord (opc ++ 0x800000000000000#60) = false := by
  decide

/-- The reserved bits next to each operand, and the top reserved bit: formats T, MP and G. -/
theorem test_wellFormed_refuses_reserved_T_MP_G :
    wellFormedWord 0x1000000100000000 = false ∧ wellFormedWord 0x1800000000000000 = false ∧
    wellFormedWord 0x6000000100000000 = false ∧ wellFormedWord 0x6800000000000000 = false ∧
    wellFormedWord 0x7000000000010000 = false ∧ wellFormedWord 0x7800000000000000 = false := by decide

/-- The same for formats GS and XR. -/
theorem test_wellFormed_refuses_reserved_GS_XR :
    wellFormedWord 0x9001000000000000 = false ∧ wellFormedWord 0x9800000000000000 = false ∧
    wellFormedWord 0xA000000020000000 = false ∧ wellFormedWord 0xA000000200000000 = false ∧
    wellFormedWord 0xA000000080000000 = false ∧ wellFormedWord 0xA800000000000000 = false := by decide

/-- The same for formats GL and R. -/
theorem test_wellFormed_refuses_reserved_GL_R :
    wellFormedWord 0xB000000000000100 = false ∧ wellFormedWord 0xB000000080000000 = false ∧
    wellFormedWord 0xB001000000000000 = false ∧ wellFormedWord 0xB800000000000000 = false ∧
    wellFormedWord 0xD000000000000100 = false ∧ wellFormedWord 0xD800000000000000 = false := by decide

/-- Operands with all bits set. -/
theorem test_wellFormed_accepts_full_operands :
    wellFormedWord 0x10000000FFFFFFFF = true ∧ wellFormedWord 0x60000000FFFFFFFF = true ∧
    wellFormedWord 0x700000000000FFFF = true ∧ wellFormedWord 0x9000FFFFFFFFFFFF = true ∧
    wellFormedWord 0xA00000011FFFFFFF = true ∧ wellFormedWord 0xB000FFFF000000FF = true ∧
    wellFormedWord 0xD0000000000000FF = true := by decide

theorem test_opcodeTable_rows_disjoint :
    opcodeTable.Pairwise fun a b => a.disjoint b = true := by decide

/-- Each operand just past its field is an assembly error (R61). -/
theorem test_assembler_refuses_operands_that_do_not_fit :
    ∀ l ∈ ([.lset (2 ^ 32), .freg (2 ^ 16) 0, .freg 0 (2 ^ 16), .feval (2 ^ 16), .enc (2 ^ 16) 0,
        .enc 0 (2 ^ 32), .dec true (2 ^ 29), .send (2 ^ 16) [], .send 0 [256], .rdreg 256,
        .fonly (2 ^ 16) 0, .fonly 0 (2 ^ 16), .fexact (2 ^ 16), .raw (2 ^ 64),
        .resetDirective (2 ^ 16), .rxDirective true (2 ^ 29) [], .rxDirective true 0 [256],
        .send 0 (List.replicate 256 0)] : List SourceLine),
      assembleLine l = none := by decide +kernel

/-! ### Decoding: words written out field by field from R45 to R52 -/

theorem test_decode_format_N :
    decoded 0b0000_000000000000000000000000000000000000000000000000000000000000 9 = some .nop ∧
    decoded 0b0010_000000000000000000000000000000000000000000000000000000000000 9 = some .lrtg ∧
    decoded 0b0011_000000000000000000000000000000000000000000000000000000000000 9 = some .lchk ∧
    decoded 0b0100_000000000000000000000000000000000000000000000000000000000000 9 = some .lqry ∧
    decoded 0b0101_000000000000000000000000000000000000000000000000000000000000 9 = some .fclr ∧
    decoded 0b1000_000000000000000000000000000000000000000000000000000000000000 9 = some .fcnt ∧
    decoded 0b1100_000000000000000000000000000000000000000000000000000000000000 9 = some .recv := by
  decide

theorem test_decode_lset :
    decoded 0b0001_0000000000000000000000000000_10000000000000000000000001100100 9 =
      some (.lset 0x80000064) := by decide

theorem test_decode_freg :
    decoded 0b0110_0000000000000000000000000000_0000000000001111_1000000000000001 9 =
      some (.freg 0x000F 0x8001) := by decide

theorem test_decode_feval :
    decoded 0b0111_00000000000000000000000000000000000000000000_1000011110100101 9 =
      some (.feval 0x87A5) := by decide

theorem test_decode_enc :
    decoded 0b1001_000000000000_1000000100100011_10000000000000001010101111001101 9 =
      some (.enc 0x8123 0x8000ABCD) := by decide

theorem test_decode_dec :
    decoded 0b1010_000000000000000000000000000_1_000_10100100011001010101111001101 9 =
      some (.dec true 0x148CABCD) ∧
    decoded 0b1010_000000000000000000000000000_0_000_00000000000000000011111111111 9 =
      some (.dec false 0x7FF) := by decide

theorem test_decode_send :
    decoded 0b1011_000000000000_1000000101010101_000000000000000000000000_10001010 0x0807060504030201 =
      some (.send 0x8155 0x8A 0x0807060504030201) := by decide

theorem test_decode_rdreg :
    decoded 0b1101_0000000000000000000000000000000000000000000000000000_10001011 9 =
      some (.rdreg 0x8B) := by decide

/-- Opcode before reserved bits (V76), and the cause each word names (V75, V80, V50, V51). -/
theorem test_decode_names_the_cause :
    (match decode 0xFFFFFFFFFFFFFFFF 0 with | .error c => some c | .ok _ => none) =
      some .illegalOpcode ∧
    (match decode 0xA000000020000000 0 with | .error c => some c | .ok _ => none) =
      some .reservedBits := by decide

/-- A table word of 128 bits: the command word in bits 63..0, the data word in bits 127..64. -/
theorem test_decodeTableWord :
    decodeTableWord 128 0x0807060504030201B00001550000000A =
      some (.send 0x155 10 0x0807060504030201) ∧
    decodeTableWord 64 0x0807060504030201B00001550000000A = some (.send 0x155 10 0) ∧
    decodeTableWord 64 0xE000000000000000 = none := by decide

/-- The words of all fourteen rows, and step runs each as the first instruction after reset. -/
theorem test_withFetchWord_runs_after_reset :
    ∀ w ∈ opcodeTable.map (·.value.toNat),
      (decodeTableWord 64 w).isSome = true ∧
      observe (fun t => (t.hostPos, t.responses.length, t.pending))
        (step (State.reset.withFetchWord 64 w)) = some (1, 1, []) := by decide

/-! ### Liveness -/

/-- V1. -/
theorem test_lset : observe livenessView (run 0x1000000000000064 0 (withTimer 7 0 false)) =
    some ([0], 100, 100, true) := by decide

/-- V15: LSET with bit 32 set; RDREG FAULT then gives 0x10201. -/
theorem test_lset_reserved :
    observe (fun t => (faultView t, t.lvDur, readRegister 6 t)) (run 0x1000000100000000 0 (withTimer 7 7 true)) =
      some ((some 0x1000000000000002, true, 0x02, 0x1), 7, some 0x00010201) := by decide

/-- V5 and V6. -/
theorem test_lrtg :
    observe livenessView (run 0x2000000000000000 0 (withTimer 5 0 false)) = some ([0], 5, 5, true) ∧
    observe livenessView (run 0x2000000000000000 0 (withTimer 0 0 false)) = some ([0], 0, 0, true) := by
  decide

/-- V9, V10 and V11. -/
theorem test_lchk :
    observe livenessView (run 0x3000000000000000 0 (withTimer 5 1 true)) = some ([1], 5, 1, true) ∧
    observe livenessView (run 0x3000000000000000 0 (withTimer 5 0 true)) = some ([0], 5, 0, false) ∧
    observe livenessView (run 0x3000000000000000 0 (withTimer 5 0 false)) = some ([0], 5, 0, false) := by
  decide

/-- V12: a stale ALIVE, and no check. -/
theorem test_lqry :
    observe livenessView (run 0x4000000000000000 0 (withTimer 5 0 true)) = some ([1], 5, 0, true) := by
  decide

/-- V3 and V4. -/
theorem test_tick :
    observe State.lvRem (step ((withTimer 5 0xFFFFFFFF true).withNext .tick)) = some 0xFFFFFFFE ∧
    observe State.lvRem (step ((withTimer 5 0 true).withNext .tick)) = some 0 := by decide

/-! ### Filter -/

/-- V29: the count is 0 and no slot is erased. -/
theorem test_fclr :
    observe (fun t => (t.responses, t.ftCount, t.ftSlots == threeEntries.ftSlots))
      (run 0x5000000000000000 0 threeEntries) = some ([0], 0, true) := by decide

/-- L1 entry 5, the second registration: slot 1, COUNT 2. -/
theorem test_freg_stores :
    observe (fun t => (t.responses, t.ftCount, t.ftSlots.take 3))
      (run 0x6000000000FF0011 0 { threeEntries with ftCount := 1 }) =
      some ([0x203], 2, [⟨0x0F, 0x01⟩, ⟨0xFF, 0x11⟩, ⟨0x700, 0x700⟩]) := by decide

/-- L1 entry 6: the eleventh entry is dropped. -/
theorem test_freg_drops :
    observe (fun t => (t.responses, t.ftCount, t.ftSlots == fullTable.ftSlots))
      (run 0x60000000FFFF000B 0 fullTable) = some ([0xA01], 10, true) := by decide

/-- V26 to V28. -/
theorem test_feval :
    observe State.responses (run 0x70000000000007A5 0 threeEntries) = some [0x10700] ∧
    observe State.responses (run 0x70000000000007A1 0 threeEntries) = some [0x10001] ∧
    observe State.responses (run 0x7000000000000002 0 threeEntries) = some [0] := by decide

/-- L1 entry 3 (pass-through), V21 (a pattern bit outside the mask) and V24 (mask 0). -/
theorem test_feval_corners :
    observe State.responses (run 0x700000000000FFFF 0 ready) = some [0x1FFFF] ∧
    observe State.responses
      (run 0x7000000000000010 0 { ready with ftCount := 1, ftSlots := [⟨0x0F, 0x10⟩] }) = some [0] ∧
    observe State.responses
      (run 0x7000000000001234 0 { ready with ftCount := 1, ftSlots := [⟨0, 0⟩] }) = some [0x10000] := by
  decide

/-- L1 entry 6 and V19. -/
theorem test_fcnt :
    observe State.responses (run 0x8000000000000000 0 fullTable) = some [0xA] ∧
    observe State.responses (run 0x8000000000000000 0 ready) = some [0] := by decide

/-! ### Codec -/

/-- L1 entry 1, V40, V43 and V44. -/
theorem test_enc :
    observe State.responses (run 0x900001230000ABCD 0 ready) = some [0x48CABCD] ∧
    observe State.responses (run 0x9000080000000000 0 ready) = some [0] ∧
    observe State.responses (run 0x9000000100040000 0 ready) = some [0x40000] ∧
    observe State.responses (run 0x9000000020000000 0 ready) = some [0] := by decide

/-- V48, and L1 entry 2. -/
theorem test_dec :
    observe State.responses (run 0xA00000010554BEEF 0 ready) = some [0x000001550000BEEF] ∧
    observe State.responses (run 0xA0000000000007FF 0 ready) = some [0x000007FF00000000] := by decide

/-- L1 entry 2 (0x800 as a standard id) and V49. -/
theorem test_dec_std_id_range :
    observe faultView (run 0xA000000000000800 0 ready) =
      some (some 0x1000000000000003, true, 0x03, 0xA) ∧
    observe (readRegister 6) (run 0xA00000001FFFFFFF 0 ready) = some (some 0x000A0301) := by decide

/-! ### Session -/

/-- L1 entry 8: ten bytes offered, eight sent. -/
theorem test_send_truncates :
    observe (fun t => (t.responses, t.tx)) (run 0xB00001550000000A 0x0807060504030201 ready) =
      some ([0x00000554BEEF0801], [⟨0x554BEEF, true, 8, [1, 2, 3, 4, 5, 6, 7, 8]⟩]) := by decide

/-- V55: the bytes past LEN are ignored; and V54: GID bit 11 is lost. -/
theorem test_send_short :
    observe (fun t => (t.responses, t.tx)) (run 0xB000000000000003 0xFFFFFFFFFF030201 ready) =
      some ([0x00000000BEEF0301], [⟨0xBEEF, true, 3, [1, 2, 3]⟩]) ∧
    observe (fun t => (t.responses, t.tx)) (run 0xB000080000000001 0x77 ready) =
      some ([0x00000000BEEF0101], [⟨0xBEEF, true, 1, [0x77]⟩]) := by decide

/-- V61: the check, then the retrigger; and V58 without a frame. -/
theorem test_recv :
    observe (fun t => (livenessView t, t.rxfGid, t.rxfSid))
      (run 0xC000000000000000 0 (framePending true 0x48CABCD (withTimer 0 0 true))) =
      some (([0x0100000000000123], 0, 0, true), 0x123, 0xABCD) ∧
    observe livenessView (run 0xC000000000000000 0 (withTimer 2 0 true)) = some ([0], 2, 0, false) := by
  decide

/-- V65: the fault discards the check, and the frame stays pending. -/
theorem test_recv_fault :
    observe (fun t => (faultView t, t.lvAlive, t.rxPend))
      (run 0xC000000000000000 0 (framePending false 0x800 (withTimer 10 0 true))) =
      some ((some 0x1000000000000003, true, 0x03, 0xC), true, true) := by decide

/-- V60: three bytes delivered, zeros above them; and a delivery into a full latch is no step. -/
theorem test_deliver :
    observe (fun t => (t.rxPend, t.rxExt, t.rxId, t.rxLen, t.rxData))
      (step (ready.withNext (.deliver true 0x3FFFF 3 #v[0x11, 0x22, 0x33, 9, 9, 9, 9, 9]))) =
      some (true, true, 0x3FFFF, 3, #v[0x11, 0x22, 0x33, 0, 0, 0, 0, 0]) ∧
    observe State.rxPend
      (step ((framePending true 0 ready).withNext (.deliver true 0 0 (Vector.replicate 8 0)))) = none := by
  decide

/-! ### System commands and faults -/

/-- V72, and V80: NOP with a reserved bit in a halted block. -/
theorem test_nop :
    observe State.responses (run 0x0000000000000000 0 halted) = some [0] ∧
    observe faultView (run 0x0000000000000001 0 halted) =
      some (some 0x1000000000000002, true, 0x03, 0xC) := by decide

/-- V66 and V68. -/
theorem test_rdreg :
    observe State.responses (run 0xD000000000000000 0 ready) = some [0xBEEF] ∧
    observe State.responses (run 0xD000000000000002 0 ready) = some [0xA] := by decide

/-- V73, and V79: an unassigned number, not halted and halted. -/
theorem test_rdreg_unassigned :
    observe (readRegister 6) (run 0xD0000000000000FF 0 ready) = some (some 0x000D0401) ∧
    observe faultView (run 0xD00000000000000C 0 halted) =
      some (some 0x1000000000000004, true, 0x03, 0xC) := by decide

/-- V76: ILLEGAL_OPCODE wins over RESERVED_BITS. -/
theorem test_illegal_opcode :
    observe (readRegister 6) (run 0xFFFFFFFFFFFFFFFF 0 ready) = some (some 0x000F0101) := by decide

/-- V77 and V78, with CAUSE 3. -/
theorem test_halted :
    observe faultView (run 0x1000000000000009 0 halted) =
      some (some 0x2000000000000003, true, 0x03, 0xC) ∧
    observe faultView (run 0xE000000000000000 0 halted) =
      some (some 0x2000000000000003, true, 0x03, 0xC) := by decide

/-- V82: reset leaves the halted state and takes the input. -/
theorem test_reset :
    observe (fun t => (t.nodeId, t.faulted, t.cause, t.fopc, t.lvAlive, t.ftCount))
      (step (halted.withNext (.reset 0x0001))) = some (0x0001, false, 0, 0, true, 0) := by decide

/-- R96: a run that is halted by an illegal opcode and then reset ends not halted, and is reported as
faulted; without the illegal opcode it is clean; a delivery into a full latch is reported as refused. -/
theorem test_runReport :
    observe State.faulted
      (runSteps 2 { ready with pending := [.command 0xE000000000000000 0, .reset 1] }) = some false ∧
    runReport 2 { ready with pending := [.command 0xE000000000000000 0, .reset 1] } = .faulted ∧
    runReport 2 { ready with pending := [.command 0x3000000000000000 0, .reset 1] } = .clean ∧
    runReport 1 ((framePending true 0 ready).withNext (.deliver true 0 0 (Vector.replicate 8 0))) =
      .refused := by decide

/-! ### The assembler -/

/-- L1 entry 8, its text with a comment. -/
theorem test_assemble_send :
    assembleText "SEND 0x155, [1,2,3,4,5,6,7,8,9,10] # ten".toList =
      some [.command 0xB00001550000000A 0x0807060504030201] := by decide

/-- P3: a register name; V60: a delivery directive; and an unknown mnemonic. -/
theorem test_assemble_lines :
    assembleText "RDREG RXF_DATA1".toList = some [.command 0xD00000000000000B 0] ∧
    assembleText "@rx EXT, 0x3FFFF, [0x11,0x22,0x33]".toList =
      some [.deliver true 0x3FFFF 3 #v[0x11, 0x22, 0x33, 0, 0, 0, 0, 0]] ∧
    assembleText "FOO 1".toList = none := by decide

/-! ### Witnesses: the hypotheses of each obligation can be met -/

theorem witness_EncodeOfDecodeIsTheCommandWord :
    decode 0xB00001550000000A 7 = .ok (.send 0x155 10 7) ∧
    (0xB00001550000000A : Word64).extractLsb' 60 4 = 0xB := ⟨rfl, by decide⟩

theorem witness_DecodeAcceptsExactlyTheOpcodeMap :
    decode 0xD0000000000000FF 0 = .ok (.rdreg 0xFF) := rfl

theorem witness_IllegalOpcodesFault :
    ready.faulted = false ∧ (0xE000000000000000 : Word64).extractLsb' 60 4 = 0xE ∧
    (0xFFFFFFFFFFFFFFFF : Word64).extractLsb' 60 4 = 0xF := by decide

/-- For every row of the table in the statement, a word with its lowest reserved bit alone. -/
theorem witness_ReservedBitsFault :
    ready.faulted = false ∧
    ((0x0000000000000001 : Word64).extractLsb' 60 4 = 0x0 ∧ (0x0000000000000001 : Word64) &&& 0x0FFFFFFFFFFFFFFF ≠ 0) ∧
    ((0x1000000100000000 : Word64).extractLsb' 60 4 = 0x1 ∧ (0x1000000100000000 : Word64) &&& 0x0FFFFFFF00000000 ≠ 0) ∧
    ((0x2000000000000001 : Word64).extractLsb' 60 4 = 0x2 ∧ (0x2000000000000001 : Word64) &&& 0x0FFFFFFFFFFFFFFF ≠ 0) ∧
    ((0x3000000000000001 : Word64).extractLsb' 60 4 = 0x3 ∧ (0x3000000000000001 : Word64) &&& 0x0FFFFFFFFFFFFFFF ≠ 0) ∧
    ((0x4000000000000001 : Word64).extractLsb' 60 4 = 0x4 ∧ (0x4000000000000001 : Word64) &&& 0x0FFFFFFFFFFFFFFF ≠ 0) ∧
    ((0x5000000000000001 : Word64).extractLsb' 60 4 = 0x5 ∧ (0x5000000000000001 : Word64) &&& 0x0FFFFFFFFFFFFFFF ≠ 0) ∧
    ((0x6000000100000000 : Word64).extractLsb' 60 4 = 0x6 ∧ (0x6000000100000000 : Word64) &&& 0x0FFFFFFF00000000 ≠ 0) ∧
    ((0x7000000000010000 : Word64).extractLsb' 60 4 = 0x7 ∧ (0x7000000000010000 : Word64) &&& 0x0FFFFFFFFFFF0000 ≠ 0) ∧
    ((0x8000000000000001 : Word64).extractLsb' 60 4 = 0x8 ∧ (0x8000000000000001 : Word64) &&& 0x0FFFFFFFFFFFFFFF ≠ 0) ∧
    ((0x9001000000000000 : Word64).extractLsb' 60 4 = 0x9 ∧ (0x9001000000000000 : Word64) &&& 0x0FFF000000000000 ≠ 0) ∧
    ((0xA000000020000000 : Word64).extractLsb' 60 4 = 0xA ∧ (0xA000000020000000 : Word64) &&& 0x0FFFFFFEE0000000 ≠ 0) ∧
    ((0xB000000000000100 : Word64).extractLsb' 60 4 = 0xB ∧ (0xB000000000000100 : Word64) &&& 0x0FFF0000FFFFFF00 ≠ 0) ∧
    ((0xC000000000000001 : Word64).extractLsb' 60 4 = 0xC ∧ (0xC000000000000001 : Word64) &&& 0x0FFFFFFFFFFFFFFF ≠ 0) ∧
    ((0xD000000000000100 : Word64).extractLsb' 60 4 = 0xD ∧ (0xD000000000000100 : Word64) &&& 0x0FFFFFFFFFFFFF00 ≠ 0) := by
  decide

theorem witness_OnlySendReadsTheDataWord :
    (0xA000000000000000 : Word64).extractLsb' 60 4 ≠ 0xB ∧
    (0xC000000000000000 : Word64).extractLsb' 60 4 ≠ 0xB := by decide

theorem witness_StepRunsTheDecodedCommand :
    (ready.withNext (.command 0x2000000000000000 0)).pending = .command 0x2000000000000000 0 :: [] ∧
    decode 0x2000000000000000 0 = .ok .lrtg := ⟨rfl, rfl⟩

/-- Halted; not halted with each of the three outcomes; halted with NOP and RDREG words. -/
theorem witness_CommandChecksRunInOrder :
    (halted.faulted = true ∧ (0xE000000000000000 : Word64).extractLsb' 60 4 = 0xE) ∧
    (ready.faulted = false ∧ (0xF000000000000000 : Word64).extractLsb' 60 4 = 0xF) ∧
    ((0x3000000000000001 : Word64).extractLsb' 60 4 = 0x3 ∧ wellFormedWord 0x3000000000000001 = false) ∧
    wellFormedWord 0x3000000000000000 = true ∧
    ((0xD000000000000100 : Word64).extractLsb' 60 4 = 0xD ∧ wellFormedWord 0xD000000000000100 = false) ∧
    ((0x0000000000000000 : Word64).extractLsb' 60 4 = 0x0 ∧ wellFormedWord 0x0000000000000000 = true) := by
  decide

/-- The two cases of every command's rule (`faulted` false and true), and a word of each opcode for its
encoding part: LSET, LRTG, LCHK, LQRY, FCLR, FREG, FEVAL, FCNT, ENC, DEC, SEND, RECV, RDREG, NOP. -/
theorem witness_command_rules :
    ready.faulted = false ∧ halted.faulted = true ∧
    ∀ opc ∈ [0x0#4, 0x1#4, 0x2#4, 0x3#4, 0x4#4, 0x5#4, 0x6#4, 0x7#4, 0x8#4, 0x9#4, 0xA#4, 0xB#4,
        0xC#4, 0xD#4], (opc ++ 0#60 : BitVec 64).extractLsb' 60 4 = opc := by decide

theorem witness_LchkReportsAndStoresTheCheck :
    ((withTimer 5 1 true).LivenessOk ∧ (withTimer 5 1 true).faulted = false) ∧
    ((withTimer 5 0 false).LivenessOk ∧ (withTimer 5 0 false).faulted = false) := by decide

/-- `n` = T - 1 and `n` = T, after LSET and after LRTG. -/
theorem witness_CheckReportsAliveWithinTheWindow :
    ready.faulted = false ∧ 4 < ready.lvDur.toNat ∧ ¬5 < ready.lvDur.toNat := by decide

theorem witness_CountdownTracksTheDeadline :
    Deadline.Tracks ⟨2, 7⟩ ready ∧ ∃ t, step (ready.withNext .tick) = .next t :=
  ⟨show ready.lvRem.toNat = 7 - 2 by decide, _, rfl⟩

theorem witness_LivenessIsCurrentAfterACheck :
    (ready.LivenessOk ∧ ready.faulted = false ∧ ready.rxPend = false ∧
      (∃ t, exec .lchk ready = .next t) ∧ ∃ t, exec .recv ready = .next t) ∧
    (framePending false 0x7FF ready).LivenessOk ∧ (framePending false 0x7FF ready).faulted = false ∧
      (framePending false 0x7FF ready).rxPend = true ∧
      ∃ t, exec .recv (framePending false 0x7FF ready) = .next t ∧ t.faulted = false :=
  ⟨⟨by decide, by decide, by decide, ⟨_, rfl⟩, _, rfl⟩, by decide, by decide, by decide, _, rfl, by decide⟩

theorem witness_TickAndCheckInEitherOrder :
    (withTimer 5 1 true).faulted = false ∧ (withTimer 5 1 true).lvRem = 1 ∧
    (withTimer 5 1 true).lvAlive = true := by decide

/-- An empty table; the first entry matches; the last valid entry is the first that matches; none does. -/
theorem witness_FilterEvalIsFirstMatch :
    ready.ftCount = 0 ∧
    (0 < threeEntries.ftCount.toNat ∧ threeEntries.ftSlots[0]? = some ⟨0x0F, 0x01⟩ ∧
      (0x7A1 : GroupId) &&& 0x0F = 0x01) ∧
    (2 < threeEntries.ftCount.toNat ∧ threeEntries.ftSlots[2]? = some ⟨0x700, 0x700⟩ ∧
      (0x7A5 : GroupId) &&& 0x700 = 0x700 ∧ (0x7A5 : GroupId) &&& 0x0F ≠ 0x01 ∧
      (0x7A5 : GroupId) &&& 0xFF ≠ 0x11) ∧
    (threeEntries.ftCount ≠ 0 ∧ (0x02 : GroupId) &&& 0x0F ≠ 0x01 ∧ (0x02 : GroupId) &&& 0xFF ≠ 0x11 ∧
      (0x02 : GroupId) &&& 0x700 ≠ 0x700) := by decide

/-- The hypotheses of its laws 1 to 6 in order; law 4 with tables that differ in a forgotten slot. -/
theorem witness_MatchEngineLaws :
    ready.ftCount = 0 ∧
    (threeEntries.ftCount ≠ 0 ∧ filterEval threeEntries 0x7A5 = (true, 0x700)) ∧
    (0x10 : BitVec 16) &&& ~~~0x0F ≠ 0 ∧
    (let t : State := { threeEntries with ftSlots := threeEntries.ftSlots.set 3 ⟨1, 1⟩ };
      threeEntries.ftCount = t.ftCount ∧
      threeEntries.ftSlots.take threeEntries.ftCount.toNat = t.ftSlots.take t.ftCount.toNat ∧
      threeEntries.ftSlots ≠ t.ftSlots) ∧
    (fullTable.faulted = false ∧ fullTable.filterCapacity.toNat ≤ fullTable.ftCount.toNat) ∧
    (fullTable.FilterOk ∧ fullTable.ftCount ≠ 0 ∧ ∀ e ∈ fullTable.ftSlots, e.mask = 0xFFFF) := by decide

/-- The last free slot, the full table, and a full table of capacity 255. -/
theorem witness_FregStoresOrDropsTheEntry :
    (ready.faulted = false ∧
      ({ ready with ftCount := 9 } : State).ftCount.toNat < ready.filterCapacity.toNat) ∧
    (fullTable.faulted = false ∧ fullTable.filterCapacity.toNat ≤ fullTable.ftCount.toNat) ∧
    ({ ready with filterCapacity := 255, ftCount := 254 } : State).ftCount.toNat <
      ({ ready with filterCapacity := 255, ftCount := 254 } : State).filterCapacity.toNat ∧
    fullTable.FilterOk ∧ (∃ t, exec (.freg 0xFF 0x11) fullTable = .next t) ∧
    ready.FilterOk ∧ ∃ t, exec (.freg 0xFF 0x11) ready = .next t :=
  ⟨by decide, by decide, by decide, by decide, ⟨_, rfl⟩, by decide, _, rfl⟩

theorem witness_ForgottenSlotsAreUnobservable :
    SameButForgottenSlots ready { ready with ftSlots := List.replicate 10 ⟨1, 2⟩ } ∧
    ready.faulted = false ∧ ∃ t, exec .fclr ready = .next t :=
  ⟨⟨rfl, rfl, rfl⟩, by decide, _, rfl⟩

theorem witness_CodecEncodePacksTheFields :
    (0x7FF : GroupId).toNat < 2 ^ 11 ∧ (0x3FFFF : BitVec 32).toNat < 2 ^ 18 := by decide

/-- Standard ids 0x7FF and 0x800, in DEC and in the latch. -/
theorem witness_CodecDecodeUnpacksTheFields :
    (0x7FF : ArbId).toNat < 0x800 ∧
    (0x800 ≤ (0x800 : ArbId).toNat ∧ ready.faulted = false) ∧
    (let s := framePending false 0x800 ready;
      s.faulted = false ∧ s.rxPend = true ∧ s.rxExt = false ∧ 0x800 ≤ s.rxId.toNat) := by decide

/-- An extended frame; a standard frame with the largest id. -/
theorem witness_PayloadIsCappedAtEightBytes :
    ready.faulted = false ∧
    (let s := framePending true 0x1FFFFFFF ready;
      s.faulted = false ∧ s.rxPend = true ∧ s.rxExt = true) ∧
    (let s := framePending false 0x7FF ready;
      s.faulted = false ∧ s.rxPend = true ∧ s.rxId.toNat < 0x800) := by decide

theorem witness_DecUnpacksAnId :
    ready.faulted = false ∧ (0x7FF : ArbId).toNat < 0x800 ∧ 0x800 ≤ (0x800 : ArbId).toNat ∧
    halted.faulted = true := by decide

theorem witness_CodecLaws :
    (0x7FF : GroupId).toNat < 2 ^ 11 ∧ (0x3FFFF : BitVec 32).toNat < 2 ^ 18 ∧
    ∃ t f, exec (.send 0xFFFF 1 7) ready = .next t ∧ t.tx = ready.tx ++ [f] :=
  ⟨by decide, by decide, _, _, rfl, rfl⟩

theorem witness_DeliveryFillsTheEmptyLatch :
    ready.rxPend = false ∧ halted.rxPend = false ∧ (framePending true 0 ready).rxPend = true := by decide

/-- No frame; an extended frame; standard ids 0x7FF and 0x800; halted. -/
theorem witness_RecvPollsOnce :
    (ready.faulted = false ∧ ready.rxPend = false) ∧
    (let s := framePending true 0x1FFFFFFF ready;
      s.faulted = false ∧ s.rxPend = true ∧ s.rxExt = true) ∧
    (let s := framePending false 0x7FF ready;
      s.faulted = false ∧ s.rxPend = true ∧ s.rxId.toNat < 0x800) ∧
    (let s := framePending false 0x800 ready;
      s.faulted = false ∧ s.rxPend = true ∧ s.rxExt = false ∧ 0x800 ≤ s.rxId.toNat) ∧
    halted.faulted = true := by decide

theorem witness_RecvLaws :
    (ready.rxPend = false ∧ (∃ t, exec .recv ready = .next t) ∧ ∃ u, exec .lchk ready = .next u) ∧
    (let s := framePending true 0x48CABCD (withTimer 5 2 true);
      s.faulted = false ∧ s.rxPend = true ∧
        ∃ t, exec .recv s = .next t ∧ t.faulted = false ∧ t.lvRem ≠ s.lvRem) :=
  ⟨⟨by decide, ⟨_, rfl⟩, _, rfl⟩, by decide, by decide, _, rfl, by decide, by decide⟩

theorem witness_SendLaws :
    ready.faulted = false ∧ (0x7FF : GroupId).toNat < 2 ^ 11 ∧
    ∃ t r, exec (.send 0x7FF 255 7) ready = .next t ∧ t.responses = ready.responses ++ [r] ∧
      r.extractLsb' 60 4 = 0 :=
  ⟨by decide, by decide, _, _, rfl, rfl, by decide⟩

theorem witness_PayloadBytesArePackedLittleEndian :
    ready.faulted = false ∧ 7 < min (0xFF : BitVec 8).toNat 8 := by decide

/-- The first and the last assigned number, and the first and the last unassigned one. -/
theorem witness_RdregReadsTheNumberedRegister :
    (0x00#8, ready.nodeId.setWidth 32) ∈ [(0x00#8, ready.nodeId.setWidth 32)] ∧
    ¬0x0C ≤ (0x0B : BitVec 8).toNat ∧ 0x0C ≤ (0x0C : BitVec 8).toNat ∧ 0x0C ≤ (0xFF : BitVec 8).toNat := by
  decide

/-- A response that is no fault, and one that is. -/
theorem witness_ReadCommandsHaveNoSideEffect :
    (∃ t r, exec (.rdreg 0x0B) ready = .next t ∧ t.responses = ready.responses ++ [r] ∧
      r.extractLsb' 60 4 ≠ 1) ∧
    ∃ t r, exec (.rdreg 0x0C) ready = .next t ∧ t.responses = ready.responses ++ [r] ∧
      r.extractLsb' 60 4 = 1 :=
  ⟨⟨_, _, rfl, rfl, by decide⟩, _, _, rfl, rfl, by decide⟩

theorem witness_FaultEntryIsPrecise :
    ∃ t r, step (ready.withNext (.command 0xA000000000000800 0)) = .next t ∧
      t.responses = ready.responses ++ [r] ∧ r.extractLsb' 60 4 = 1 :=
  ⟨_, _, rfl, rfl, by decide⟩

/-- A state with the clauses' hypotheses, and runs that reach it: in no step, and in one from before it. -/
theorem witness_HaltedBlockAnswersHalted :
    halted.faulted = true ∧ (0x1000000000000009 : Word64).extractLsb' 60 4 = 0x1 ∧
    decode 0x0000000000000000 0 = .ok .nop ∧ decode 0xD000000000000006 0 = .ok (.rdreg 6) ∧
    halted.rxPend = false ∧ runSteps 0 halted = .next halted ∧
    ∃ t, runSteps 1 (ready.withNext (.command 0xE000000000000000 0)) = .next t ∧ t.faulted = true :=
  ⟨by decide, by decide, rfl, rfl, by decide, rfl, _, rfl, rfl⟩

/-- A step that is no reset; a fault while halted of NOP and of RDREG; a reset. -/
theorem witness_OnlyResetClearsTheFault :
    (∃ t, step (halted.withNext .tick) = .next t) ∧ halted.faulted = true ∧ ¬Event.tick.IsReset ∧
    (∃ t r, step (halted.withNext (.command 0x0000000000000001 0)) = .next t ∧
      t.responses = halted.responses ++ [r] ∧ r.extractLsb' 60 4 = 1) ∧
    (∃ t r, step (halted.withNext (.command 0xD00000000000000C 0)) = .next t ∧
      t.responses = halted.responses ++ [r] ∧ r.extractLsb' 60 4 = 1) ∧
    ∃ t, step (halted.withNext (.reset 1)) = .next t :=
  ⟨⟨_, rfl⟩, by decide, (by rintro ⟨_, h⟩; cases h), ⟨_, _, rfl, rfl, by decide⟩,
    ⟨_, _, rfl, rfl, by decide⟩, _, rfl⟩

/-- A step that clears `FAULT`. -/
theorem witness_ResetSetsEveryField :
    (halted.withNext (.reset 1)).pending = .reset 1 :: [] ∧ halted.faulted = true ∧
    ∃ t, step (halted.withNext (.reset 1)) = .next t ∧ t.faulted = false :=
  ⟨rfl, rfl, _, rfl, rfl⟩

theorem witness_EveryStepKeepsTheInvariant :
    ready.Inv ∧ (∃ t, step ready = .next t) ∧
    halted.Inv ∧ ∃ t, step (halted.withNext (.reset 1)) = .next t :=
  ⟨⟨by decide, by decide, by decide, by decide, by decide, by decide, by decide⟩, ⟨_, rfl⟩,
    ⟨by decide, by decide, by decide, by decide, by decide, by decide, by decide⟩, _, rfl⟩

theorem witness_DeadImpliesExpired :
    (withTimer 5 0 false).LivenessOk ∧
    ∃ t, step ((withTimer 5 0 false).withNext (.command 0xC000000000000000 0)) = .next t :=
  ⟨by decide, _, rfl⟩

/-- Nothing pending; a pending step that is taken; a delivery into a full latch. -/
theorem witness_EveryStepIsOneAgentsStep :
    ready.pending = [] ∧ (ready.withNext .tick).pending = .tick :: [] ∧
    (framePending true 0 ready).rxPend = true := ⟨rfl, rfl, rfl⟩

theorem witness_OneResponseForEachCommand :
    (∃ t, step (ready.withNext (.command 0xE000000000000000 0)) = .next t) ∧
    (Event.command 0xE000000000000000 0).IsCommand ∧
    (∃ t, step (ready.withNext .tick) = .next t) ∧ ¬Event.tick.IsCommand :=
  ⟨⟨_, rfl⟩, ⟨_, _, rfl⟩, ⟨_, rfl⟩, by rintro ⟨_, _, h⟩; cases h⟩

/-- Steps that change the fields: a reset, LSET, FREG, a faulting word, RECV, a delivery and SEND. -/
theorem witness_OnlyTheNamedStepsWriteEachField :
    observe State.nodeId (step (ready.withNext (.reset 1))) = some 1 ∧
    observe State.lvDur (run 0x1000000000000064 0 ready) = some 100 ∧
    observe State.lvRem (step (ready.withNext .tick)) = some 4 ∧
    observe State.lvAlive (run 0x3000000000000000 0 (withTimer 5 0 true)) = some false ∧
    observe (fun t => (t.ftCount, t.ftSlots[0]?)) (run 0x60000000000F0001 0 ready) =
      some (1, some ⟨0x0F, 0x01⟩) ∧
    observe State.faulted (run 0xE000000000000000 0 ready) = some true ∧
    observe (fun t => (t.rxfGid, t.rxPend)) (run 0xC000000000000000 0 (framePending true 0x48CABCD ready)) =
      some (0x123, false) ∧
    observe (fun t => (t.rxPend, t.rxId))
      (step (ready.withNext (.deliver false 0x155 0 (Vector.replicate 8 0)))) = some (true, 0x155) ∧
    observe (fun t => t.tx.length) (run 0xB00007FF00000000 0 ready) = some 1 := by decide

/-- Each operand at its largest value, and just past it. -/
theorem witness_AssemblerWritesTheOperands :
    2 ^ 32 - 1 < 2 ^ 32 ∧ ¬2 ^ 32 < 2 ^ 32 ∧ 2 ^ 16 - 1 < 2 ^ 16 ∧ ¬2 ^ 16 < 2 ^ 16 ∧
    2 ^ 29 - 1 < 2 ^ 29 ∧ ¬2 ^ 29 < 2 ^ 29 ∧
    ((List.replicate 255 255).length ≤ 255 ∧ ∀ b ∈ List.replicate 255 255, b < 2 ^ 8) ∧
    ¬(List.replicate 256 0).length ≤ 255 := by
  refine ⟨by decide, by decide, by decide, by decide, by decide, by decide, ⟨?_, ?_⟩, ?_⟩
  · rw [List.length_replicate]
  · intro b hb
    rw [List.eq_of_mem_replicate hb]
    decide
  · rw [List.length_replicate]
    decide

/-- A payload list of 255 bytes fits, one of 256 bytes or with the entry 256 does not. -/
theorem witness_DirectivesAreStepsOfTheOtherAgents :
    bytesFit (List.replicate 255 255) = true ∧ bytesFit (List.replicate 256 0) = false ∧
    bytesFit [256] = false := by decide +kernel

/-- A run that reaches the halted state and is reset before its end. -/
theorem witness_RunIsFaultedExactlyIfItReachesTheHaltedState :
    let s : State := { ready with pending := [.command 0xE000000000000000 0, .reset 1] }
    (∃ t, runSteps 1 s = .next t ∧ t.faulted = true) ∧ ∃ t, runSteps 2 s = .next t ∧ t.faulted = false :=
  ⟨⟨_, rfl, rfl⟩, _, rfl, rfl⟩

end Sys2Proof.Tests
end

section
/-! SUPPORT. What every command and every step does to the two fields that no command writes, the pending
steps and the filter capacity, and the statement that every step is one agent's step. -/

namespace Sys2Proof.Machine

/-! ### The pending steps and the capacity -/

/-- No command changes which steps are pending (R40). -/
theorem Executes.pending_eq {i : Instr} {s t : State} (h : Executes i s t) : t.pending = s.pending := by
  cases h <;> rfl

/-- No command changes the capacity (R12). -/
theorem Executes.filterCapacity_eq {i : Instr} {s t : State} (h : Executes i s t) :
    t.filterCapacity = s.filterCapacity := by
  cases h <;> rfl

/-- A step takes the first pending step and leaves the rest, a reset too (R40, log entries 1 and 15). -/
theorem Steps.pending_eq_tail {s t : State} (h : Steps s t) : t.pending = s.pending.tail := by
  cases h with
  | idle hp => simp [hp]
  | command _ he => exact he.pending_eq
  | halted | rejected | tick | deliver | reset => rfl

/-- No step changes the capacity (R12, log entry 3). -/
theorem Steps.filterCapacity_eq {s t : State} (h : Steps s t) : t.filterCapacity = s.filterCapacity := by
  cases h with
  | command _ he => exact he.filterCapacity_eq
  | idle | halted | rejected | tick | deliver | reset => rfl

/-! ### Every step is one agent's step -/

/-- Settles O50: by the inversion of `step`, it answers a next state, of which `Steps` says what is
pending, or refuses a delivery. -/
theorem everyStepIsOneAgentsStep : Obligations.EveryStepIsOneAgentsStep := by
  intro s
  refine ⟨step_idle, fun e rest hp => ?_⟩
  obtain ⟨t, ht, hst⟩ | ⟨hfull, ⟨ext, id, n, bytes, rest', hd⟩, href⟩ := step_cases s
  · have hpending : t.pending = rest := by rw [hst.pending_eq_tail, hp, List.tail_cons]
    exact .inl ⟨t, ht, hpending, hst.filterCapacity_eq⟩
  · have he : e = .deliver ext id n bytes := List.head_eq_of_cons_eq (hp.symm.trans hd)
    exact .inr ⟨⟨ext, id, n, bytes, he⟩, hfull, href⟩

end Sys2Proof.Machine
end

section
/-! SUPPORT. What a command can write of each field, said once from the cases of `Executes`. The statements
about all steps (the invariant, the writers of each field) cite these lemmas. -/

namespace Sys2Proof.Machine

/-! ### Fields that no command writes -/

/-- No command changes `NODE_ID` (R15). -/
theorem Executes.nodeId_eq {i : Instr} {s t : State} (h : Executes i s t) : t.nodeId = s.nodeId := by
  cases h <;> rfl

/-- No command changes the latch but for `RX_PEND` (R25). -/
theorem Executes.latch_eq {i : Instr} {s t : State} (h : Executes i s t) :
    t.rxExt = s.rxExt ∧ t.rxId = s.rxId ∧ t.rxLen = s.rxLen ∧ t.rxData = s.rxData := by
  cases h <;> exact ⟨rfl, rfl, rfl, rfl⟩

/-- Only accepting the command moves the host's position, not executing it (R14). -/
theorem Executes.hostPos_eq {i : Instr} {s t : State} (h : Executes i s t) : t.hostPos = s.hostPos := by
  cases h <;> rfl

/-! ### The response -/

/-- Every command gives one response (R43). -/
theorem Executes.responses_eq {i : Instr} {s t : State} (h : Executes i s t) :
    ∃ r, t.responses = s.responses ++ [r] := by
  cases h <;> exact ⟨_, rfl⟩

/-! ### The liveness timer -/

/-- LSET alone writes `LV_DUR` (R16). -/
theorem Executes.lvDur_cases {i : Instr} {s t : State} (h : Executes i s t) :
    t.lvDur = s.lvDur ∨ ∃ dur, i = .lset dur := by
  cases h with
  | lset => exact .inr ⟨_, rfl⟩
  | _ => exact .inl rfl

/-- A command leaves the countdown and the stored state, or arms, or checks (R17, R18). -/
theorem Executes.liveness_cases {i : Instr} {s t : State} (h : Executes i s t) :
    (t.lvRem = s.lvRem ∧ t.lvAlive = s.lvAlive) ∨
    (((∃ dur, i = .lset dur) ∨ i = .lrtg ∨ i = .recv) ∧ t.lvAlive = true) ∨
    ((i = .lchk ∨ i = .recv) ∧ t.lvRem = s.lvRem ∧ t.lvAlive = aliveAfterCheck s) := by
  cases h with
  | lset => exact .inr (.inl ⟨.inl ⟨_, rfl⟩, rfl⟩)
  | lrtg => exact .inr (.inl ⟨.inr (.inl rfl), rfl⟩)
  | recvFrame => exact .inr (.inl ⟨.inr (.inr rfl), rfl⟩)
  | lchk => exact .inr (.inr ⟨.inl rfl, rfl, rfl⟩)
  | recvNoFrame => exact .inr (.inr ⟨.inr rfl, rfl, rfl⟩)
  | _ => exact .inl ⟨rfl, rfl⟩

/-! ### The filter table -/

/-- A command leaves the table, or empties it, or stores an entry in the free slot `FT_COUNT` (R20, R21). -/
theorem Executes.table_cases {i : Instr} {s t : State} (h : Executes i s t) :
    (t.ftCount = s.ftCount ∧ t.ftSlots = s.ftSlots) ∨
    (i = .fclr ∧ t.ftCount = 0 ∧ t.ftSlots = s.ftSlots) ∨
    ∃ mask pat, i = .freg mask pat ∧ s.ftCount.toNat < s.filterCapacity.toNat ∧
      t.ftCount = s.ftCount + 1 ∧ t.ftSlots = s.ftSlots.set s.ftCount.toNat ⟨mask, pat⟩ := by
  cases h with
  | fclr => exact .inr (.inl ⟨rfl, rfl, rfl⟩)
  | fregStored _ hr => exact .inr (.inr ⟨_, _, rfl, of_decide_eq_true hr, rfl, rfl⟩)
  | _ => exact .inl ⟨rfl, rfl⟩

/-! ### The fault register -/

/-- Fault entry records the first fault and keeps it (R95, R97). -/
theorem State.faultEntered_cases (s : State) (code : BitVec 8) (opc : BitVec 4) :
    let t := s.faultEntered code opc
    (t.faulted, t.cause, t.fopc) = (s.faulted, s.cause, s.fopc) ∨
    (s.faulted = false ∧ t.faulted = true ∧ t.cause = code ∧ t.fopc = opc) := by
  cases hf : s.faulted <;> simp [State.faultEntered, hf]

/-- A command that decodes leaves the fault register, or records a fault of DEC or RECV, or of RDREG, in a
block that had none (R23, R93). -/
theorem Executes.fault_cases {i : Instr} {s t : State} (h : Executes i s t) :
    (t.faulted, t.cause, t.fopc) = (s.faulted, s.cause, s.fopc) ∨
    (s.faulted = false ∧ t.faulted = true ∧
      (t.cause = 0x03 ∧ (t.fopc = 0xA ∨ t.fopc = 0xC) ∨ t.cause = 0x04 ∧ t.fopc = 0xD)) := by
  cases h with
  | decFault =>
    exact (s.faultEntered_cases 0x03 0xA).imp id
      fun ⟨hs, ht, hc, ho⟩ => ⟨hs, ht, .inl ⟨hc, .inl ho⟩⟩
  | recvFault =>
    exact (s.faultEntered_cases 0x03 0xC).imp id
      fun ⟨hs, ht, hc, ho⟩ => ⟨hs, ht, .inl ⟨hc, .inr ho⟩⟩
  | rdregFault =>
    exact (s.faultEntered_cases 0x04 0xD).imp id fun ⟨hs, ht, hc, ho⟩ => ⟨hs, ht, .inr ⟨hc, ho⟩⟩
  | _ => exact .inl rfl

/-- A word with an opcode of the opcode map decodes unless a reserved bit is 1 (R54, R56). -/
theorem decode_eq_ifReservedClear {cmd : Word64} (hE : opcodeField cmd ≠ 0xE) (hF : opcodeField cmd ≠ 0xF)
    (data : Word64) : ∃ f i, decode cmd data = ifReservedClear f cmd i := by
  have hlt : (opcodeField cmd).toNat < 0xE := by bv_omega
  unfold decode
  interval_cases (opcodeField cmd).toNat <;> exact ⟨_, _, rfl⟩

/-- The decoder refuses a word of opcode 0xE or 0xF as ILLEGAL_OPCODE, and another one only for its reserved
bits (R55, R56). -/
theorem decode_error_cases {cmd data : Word64} {c : FaultCause} (h : decode cmd data = .error c) :
    (c = .illegalOpcode ∧ (opcodeField cmd = 0xE ∨ opcodeField cmd = 0xF)) ∨
    (c = .reservedBits ∧ opcodeField cmd ≠ 0xE ∧ opcodeField cmd ≠ 0xF) := by
  by_cases ho : opcodeField cmd = 0xE ∨ opcodeField cmd = 0xF
  · have hillegal : decode cmd data = .error .illegalOpcode := by
      rcases ho with ho | ho <;> simp [decode, ho]
    cases hillegal.symm.trans h
    exact .inl ⟨rfl, ho⟩
  · obtain ⟨hE, hF⟩ := not_or.mp ho
    obtain ⟨f, i, hd⟩ := decode_eq_ifReservedClear hE hF data
    rw [hd] at h
    obtain ⟨_, hok⟩ | ⟨_, herr⟩ := ifReservedClear_cases f cmd i
    · cases hok.symm.trans h
    · cases herr.symm.trans h
      exact .inr ⟨rfl, hE, hF⟩

/-! ### The received-frame registers, the latch and TX -/

/-- RECV alone writes the received-frame registers: with a frame taken, it captures it (R24). -/
theorem Executes.received_cases {i : Instr} {s t : State} (h : Executes i s t) :
    (t.rxfGid, t.rxfSid, t.rxfLen, t.rxfData) = (s.rxfGid, s.rxfSid, s.rxfLen, s.rxfData) ∨
    (i = .recv ∧ s.rxPend = true ∧ codecDecode s.rxExt s.rxId = some (t.rxfGid, t.rxfSid) ∧
      t.rxfLen = payloadCap s.rxLen ∧ t.rxfData = firstBytes s.rxData (payloadCap s.rxLen).toNat) := by
  cases h with
  | recvFrame _ hp hd => exact .inr ⟨rfl, hp, hd, rfl, rfl⟩
  | _ => exact .inl rfl

/-- RECV alone writes `RX_PEND` (R25). -/
theorem Executes.rxPend_cases {i : Instr} {s t : State} (h : Executes i s t) :
    t.rxPend = s.rxPend ∨ i = .recv := by
  cases h with
  | recvFrame => exact .inr rfl
  | _ => exact .inl rfl

/-- SEND alone writes TX: it appends its frame (R26). -/
theorem Executes.tx_cases {i : Instr} {s t : State} (h : Executes i s t) :
    t.tx = s.tx ∨ ∃ gid len data, i = .send gid len data ∧ t.tx = s.tx ++ [sendFrame gid len data s] := by
  cases h with
  | send => exact .inr ⟨_, _, _, rfl, rfl⟩
  | _ => exact .inl rfl

end Sys2Proof.Machine
end

section
/-! SUPPORT. The invariant of the block, part by part: every step of every agent keeps each part on its own,
and reset establishes it. -/

namespace Sys2Proof.Machine

/-! ### The liveness timer (R19) -/

/-- A command keeps R19: an arming makes the link ALIVE, and a check makes it DEAD only when expired. -/
theorem Executes.livenessOk {i : Instr} {s t : State} (h : Executes i s t) (hs : s.LivenessOk) :
    t.LivenessOk := by
  intro hdead
  obtain ⟨hrem, halive⟩ | ⟨_, halive⟩ | ⟨_, hrem, halive⟩ := h.liveness_cases
  · rw [hrem]
    exact hs (halive ▸ hdead)
  · rw [halive] at hdead
    cases hdead
  · rw [hrem]
    rw [halive, aliveAfterCheck] at hdead
    split at hdead
    · next hexp => simpa [expired] using hexp
    · exact hs hdead

/-- Every step keeps R19. -/
theorem Steps.livenessOk {s t : State} (h : Steps s t) (hs : s.LivenessOk) : t.LivenessOk := by
  cases h with
  | command _ he => exact he.livenessOk hs
  | tick =>
    intro hdead
    exact if_pos (hs hdead)
  | reset => exact fun hdead => nomatch hdead
  | idle | halted | rejected | deliver => exact hs

/-! ### The filter table (R20, R21) -/

/-- After every reset there are as many slots as the capacity (R21). -/
@[simp] theorem slotsAfterReset_length (capacity : BitVec 8) (n : Nat) :
    (slotsAfterReset capacity n).length = capacity.toNat := by
  simp [slotsAfterReset]

/-- A command keeps the count within the capacity: FREG counts only below it. -/
theorem Executes.filterOk {i : Instr} {s t : State} (h : Executes i s t) (hs : s.FilterOk) :
    t.FilterOk := by
  obtain ⟨hcap, hlen, hle⟩ := hs
  rw [State.FilterOk, h.filterCapacity_eq]
  obtain ⟨hcount, hslots⟩ | ⟨_, hcount, hslots⟩ | ⟨_, _, _, hlt, hcount, hslots⟩ := h.table_cases
  · rw [hcount, hslots]
    exact ⟨hcap, hlen, hle⟩
  · rw [hcount, hslots]
    exact ⟨hcap, hlen, Nat.zero_le _⟩
  · rw [hcount, hslots, List.length_set]
    exact ⟨hcap, hlen, by bv_omega⟩

/-- Every step keeps the table's part of the invariant. -/
theorem Steps.filterOk {s t : State} (h : Steps s t) (hs : s.FilterOk) : t.FilterOk := by
  cases h with
  | command _ he => exact he.filterOk hs
  | reset =>
    obtain ⟨hcap, _, _⟩ := hs
    exact ⟨hcap, slotsAfterReset_length _ _, Nat.zero_le _⟩
  | idle | halted | rejected | tick | deliver => exact hs

/-! ### The fault register (R23, R93) -/

/-- The fault part of the invariant speaks of `FAULT` only. -/
theorem State.FaultOk.congr {s t : State} (hs : s.FaultOk)
    (h : (t.faulted, t.cause, t.fopc) = (s.faulted, s.cause, s.fopc)) : t.FaultOk := by
  obtain ⟨hf, hc, ho⟩ : t.faulted = s.faulted ∧ t.cause = s.cause ∧ t.fopc = s.fopc := by simpa using h
  rw [State.FaultOk, hf, hc, ho]
  exact hs

/-- A command that decodes records causes 3 and 4 with the opcodes that raise them. -/
theorem Executes.faultOk {i : Instr} {s t : State} (h : Executes i s t) (hs : s.FaultOk) : t.FaultOk := by
  obtain hsame | ⟨_, ht, hcode⟩ := h.fault_cases
  · exact hs.congr hsame
  · exact ⟨fun hf => absurd (ht.symm.trans hf) (by decide), fun _ => .inr (.inr hcode)⟩

/-- A word that does not decode records causes 1 and 2 with its own opcode. -/
theorem State.FaultOk.rejected {s : State} {cmd data : Word64} {c : FaultCause} (hs : s.FaultOk)
    (hd : decode cmd data = .error c) : (s.faultEntered (causeCode c) (opcodeField cmd)).FaultOk := by
  obtain hsame | ⟨_, ht, hcause, hopc⟩ := s.faultEntered_cases (causeCode c) (opcodeField cmd)
  · exact hs.congr hsame
  · refine ⟨fun hf => absurd (ht.symm.trans hf) (by decide), fun _ => ?_⟩
    rw [hcause, hopc]
    obtain ⟨rfl, ho⟩ | ⟨rfl, ho⟩ := decode_error_cases hd
    · exact .inl ⟨rfl, ho⟩
    · exact .inr (.inl ⟨rfl, ho⟩)

/-- Every step keeps the fault register's part of the invariant. -/
theorem Steps.faultOk {s t : State} (h : Steps s t) (hs : s.FaultOk) : t.FaultOk := by
  cases h with
  | command _ he => exact he.faultOk hs
  | @rejected s _ _ _ hd => exact State.FaultOk.rejected (s := s.accepted) hs hd
  | reset => exact ⟨fun _ => ⟨rfl, rfl⟩, fun hf => nomatch hf⟩
  | idle | halted | tick | deliver => exact hs

/-! ### The received-frame registers and the latch (R24, R25) -/

/-- Every byte of a cleared payload buffer is 0. -/
theorem payloadByte_cleared {k : Nat} (hk : k < 8) : payloadByte (Vector.replicate 8 0) k = 0 := by
  simp [payloadByte, hk]

/-- The capped length is at most 8 (R80). -/
theorem payloadCap_toNat_le (n : BitVec 8) : (payloadCap n).toNat ≤ 8 :=
  (payloadCap_toNat n).trans_le (Nat.min_le_right _ _)

/-- The bytes from the cut on are 0 (R84, R87). -/
theorem payloadByte_firstBytes_of_le (p : Payload) {n k : Nat} (hk : k < 8) (hn : n ≤ k) :
    payloadByte (firstBytes p n) k = 0 := by
  rw [payloadByte_firstBytes p n hk, if_neg (Nat.not_lt.mpr hn)]

/-- A decoded group-id has 11 bits (R79). -/
theorem codecDecode_gid_lt {ext : Bool} {raw : ArbId} {g : GroupId} {sid : BitVec 18}
    (h : codecDecode ext raw = some (g, sid)) : g.toNat < 0x800 := by
  obtain ⟨_, hext⟩ | ⟨_, _, hstd⟩ | ⟨_, _, hnone⟩ := codecDecode_cases ext raw
  · cases hext.symm.trans h
    bv_omega
  · cases hstd.symm.trans h
    bv_omega
  · cases hnone.symm.trans h

/-- RECV captures an 11-bit group-id and at most eight bytes. -/
theorem Executes.receivedOk {i : Instr} {s t : State} (h : Executes i s t) (hs : s.ReceivedOk) :
    t.ReceivedOk := by
  obtain hsame | ⟨_, _, hd, hlen, hdata⟩ := h.received_cases
  · obtain ⟨hgid, _, hlen, hdata⟩ : t.rxfGid = s.rxfGid ∧ t.rxfSid = s.rxfSid ∧ t.rxfLen = s.rxfLen ∧
        t.rxfData = s.rxfData := by simpa using hsame
    rw [State.ReceivedOk, hgid, hlen, hdata]
    exact hs
  · rw [State.ReceivedOk, hlen, hdata]
    refine ⟨codecDecode_gid_lt hd, payloadCap_toNat_le _, fun k hk hn => ?_⟩
    exact payloadByte_firstBytes_of_le _ hk hn

/-- Every step keeps the received-frame registers' part of the invariant. -/
theorem Steps.receivedOk {s t : State} (h : Steps s t) (hs : s.ReceivedOk) : t.ReceivedOk := by
  cases h with
  | command _ he => exact he.receivedOk hs
  | reset => exact ⟨Nat.zero_lt_succ _, Nat.zero_le _, fun k hk _ => payloadByte_cleared hk⟩
  | idle | halted | rejected | tick | deliver => exact hs

/-- Every step keeps the latch's part of the invariant: only a delivery and reset write it. -/
theorem Steps.latchOk {s t : State} (h : Steps s t) (hs : s.LatchOk) : t.LatchOk := by
  cases h with
  | command _ he =>
    obtain ⟨_, _, hlen, hdata⟩ := he.latch_eq
    rw [State.LatchOk, hlen, hdata]
    exact hs
  | @deliver _ _ _ n =>
    intro k hk hn
    exact payloadByte_firstBytes_of_le _ hk ((payloadCap_toNat n).trans_le ((Nat.min_le_left _ _).trans hn))
  | reset => exact fun k hk _ => payloadByte_cleared hk
  | idle | halted | rejected | tick => exact hs

/-! ### TX (R26, R83) -/

/-- A 16-bit identity leaves the id bits 17:16 at 0 (R83). -/
theorem codecEncode_bits_17_16 (gid : GroupId) (node : BitVec 16) :
    (codecEncode gid (node.setWidth 32)).extractLsb' 16 2 = 0 := by
  apply BitVec.eq_of_getLsbD_eq
  intro k hk
  have hlow : 16 + k < 18 := by omega
  simp [codecEncode, hlow]

/-- The frame that SEND hands over is well formed (R86). -/
theorem sendFrame_wellFormed (gid : GroupId) (len : BitVec 8) (data : Word64) (s : State) :
    let f := sendFrame gid len data s
    f.ext = true ∧ f.bytes.length = f.len.toNat ∧ f.len.toNat ≤ 8 ∧ f.id.extractLsb' 16 2 = 0 :=
  ⟨rfl, (sendBytes_length data len).trans (payloadCap_toNat len).symm,
    payloadCap_toNat_le len, codecEncode_bits_17_16 gid s.nodeId⟩

/-- A command keeps the frames of TX well formed. -/
theorem Executes.txOk {i : Instr} {s t : State} (h : Executes i s t) (hs : s.TxOk) : t.TxOk := by
  obtain hsame | ⟨gid, len, data, _, htx⟩ := h.tx_cases
  · rw [State.TxOk, hsame]
    exact hs
  · intro f hf
    rw [htx, List.mem_append, List.mem_singleton] at hf
    rcases hf with hold | rfl
    · exact hs f hold
    · exact sendFrame_wellFormed gid len data s

/-- Every step keeps the frames of TX well formed; reset drops them. -/
theorem Steps.txOk {s t : State} (h : Steps s t) (hs : s.TxOk) : t.TxOk := by
  cases h with
  | command _ he => exact he.txOk hs
  | reset => exact fun f hf => nomatch hf
  | idle | halted | rejected | tick | deliver => exact hs

/-! ### The host's position and the responses (R14, R43) -/

/-- What a step adds to the responses and to the host's position: one of each for a command, whatever its
outcome, and else nothing. -/
theorem Steps.host_cases {s t : State} {e : Event} {rest : List Event} (h : Steps s t)
    (hp : s.pending = e :: rest) :
    (e.IsCommand ∧ (∃ r, t.responses = s.responses ++ [r]) ∧ t.hostPos = s.hostPos + 1) ∨
    (¬e.IsCommand ∧ t.responses = s.responses ∧ t.hostPos = s.hostPos) := by
  cases h with
  | idle hidle => cases hidle.symm.trans hp
  | command _ he =>
    cases hp
    exact .inl ⟨⟨_, _, rfl⟩, he.responses_eq, he.hostPos_eq⟩
  | halted | rejected =>
    cases hp
    exact .inl ⟨⟨_, _, rfl⟩, ⟨_, rfl⟩, rfl⟩
  | tick | deliver | reset =>
    cases hp
    exact .inr ⟨(fun ⟨_, _, hc⟩ => nomatch hc), rfl, rfl⟩

/-- With nothing pending the block waits unchanged (log entry 1). -/
theorem Steps.eq_of_idle {s t : State} (h : Steps s t) (hp : s.pending = []) : t = s := by
  cases h with
  | idle => rfl
  | command | halted | rejected | tick | deliver | reset => cases hp

/-- Every step keeps one response for each command. -/
theorem Steps.hostOk {s t : State} (h : Steps s t) (hs : s.HostOk) : t.HostOk := by
  cases hp : s.pending with
  | nil =>
    rw [h.eq_of_idle hp]
    exact hs
  | cons e rest =>
    obtain ⟨_, ⟨r, hresp⟩, hpos⟩ | ⟨_, hresp, hpos⟩ := h.host_cases hp
    · rw [State.HostOk, hresp, hpos, hs, List.length_append, List.length_singleton]
    · rw [State.HostOk, hresp, hpos, hs]

/-! ### The whole invariant -/

/-- Every step keeps every part of the invariant. -/
theorem Steps.inv {s t : State} (h : Steps s t) (hs : s.Inv) : t.Inv where
  liveness := h.livenessOk hs.liveness
  filter := h.filterOk hs.filter
  fault := h.faultOk hs.fault
  received := h.receivedOk hs.received
  latch := h.latchOk hs.latch
  tx := h.txOk hs.tx
  host := h.hostOk hs.host

/-- Settles O48: a step is one of the cases of `Steps`, and each of them keeps each part. -/
theorem everyStepKeepsTheInvariant : Obligations.EveryStepKeepsTheInvariant :=
  fun _ _ hs h => (steps_of_step h).inv hs

/-- Settles O47: each part, from the values reset gives its fields. -/
theorem invariantHoldsAtReset : Obligations.InvariantHoldsAtReset where
  liveness := fun hdead => nomatch hdead
  filter := ⟨by decide, slotsAfterReset_length _ _, Nat.zero_le _⟩
  fault := ⟨fun _ => ⟨rfl, rfl⟩, fun hf => nomatch hf⟩
  received := ⟨Nat.zero_lt_succ _, Nat.zero_le _, fun _ hk _ => payloadByte_cleared hk⟩
  latch := fun _ hk _ => payloadByte_cleared hk
  tx := fun _ hf => nomatch hf
  host := rfl

/-- Settles O49: R19 is inductive on its own, and reset leaves the link ALIVE. -/
theorem deadImpliesExpired : Obligations.DeadImpliesExpired :=
  ⟨invariantHoldsAtReset.liveness, fun _ _ hs h => (steps_of_step h).livenessOk hs⟩

/-- Settles O51: the case of `Steps.host_cases` is decided by whether the step is a command. -/
theorem oneResponseForEachCommand : Obligations.OneResponseForEachCommand := by
  intro s t e rest hp h
  obtain ⟨he, hcounts⟩ | ⟨he, hkept⟩ := (steps_of_step h).host_cases hp
  · exact ⟨fun _ => hcounts, fun hne => absurd he hne⟩
  · exact ⟨fun hc => absurd hc he, fun _ => hkept⟩

/-- Settles O46: reset writes none of these fields but the slots and its own count. -/
theorem resetKeepsTheModelsOwnFields : Obligations.ResetKeepsTheModelsOwnFields := by
  refine ⟨fun s id => ⟨_, step_reset s id, ?_, rfl, rfl, rfl, rfl, rfl⟩, ?_, rfl, rfl, rfl, rfl, rfl⟩
  · exact slotsAfterReset_length _ _
  · exact slotsAfterReset_length _ _

end Sys2Proof.Machine
end

section
/-! SUPPORT. Which steps can write each field of the state (R15 to R26). -/

namespace Sys2Proof.Machine

/-- Storing at `n` changes no entry but the one at `n`, and that one to the entry stored. -/
theorem getElem?_set_changed {l : List FilterEntry} {n k : Nat} {e : FilterEntry}
    (h : (l.set n e)[k]? ≠ l[k]?) : k = n ∧ (l.set n e)[k]? = some e := by
  by_cases hk : n = k
  · subst hk
    have hlt : n < l.length := by
      by_contra hge
      exact h (by rw [List.set_eq_of_length_le (Nat.not_lt.mp hge)])
    exact ⟨rfl, List.getElem?_set_self hlt⟩
  · exact absurd (List.getElem?_set_ne hk) h

/-- A command that changes a slot is a FREG that stores its entry in slot `FT_COUNT` (R21, R74). -/
theorem Executes.slot_changed {i : Instr} {s t : State} (h : Executes i s t) {k : Nat}
    (hk : t.ftSlots[k]? ≠ s.ftSlots[k]?) :
    k = s.ftCount.toNat ∧ k < s.filterCapacity.toNat ∧
      ∃ m p, i = .freg m p ∧ t.ftSlots[k]? = some ⟨m, p⟩ := by
  obtain ⟨_, hslots⟩ | ⟨_, _, hslots⟩ | ⟨mask, pat, hi, hlt, _, hslots⟩ := h.table_cases
  · exact absurd (by rw [hslots]) hk
  · exact absurd (by rw [hslots]) hk
  · rw [hslots] at hk ⊢
    obtain ⟨rfl, hentry⟩ := getElem?_set_changed hk
    exact ⟨rfl, hlt, mask, pat, hi, hentry⟩

/-- Settles O52: the steps of the other agents by the fields they write, a command that does not decode by
fault entry, and one that does by what `Executes` says of each field. -/
theorem onlyTheNamedStepsWriteEachField : Obligations.OnlyTheNamedStepsWriteEachField := by
  intro s t e rest hp hstep
  cases steps_of_step hstep with
  | idle hidle => cases hidle.symm.trans hp
  | reset =>
    cases hp
    simp [Event.IsReset]
  | tick =>
    cases hp
    simp
  | deliver =>
    cases hp
    simp [Event.IsDelivery]
  | halted =>
    cases hp
    simp [State.haltedAnswer, State.answered, State.accepted]
  | @rejected s =>
    cases hp
    cases hf : s.faulted <;> simp [State.faultEntered, State.accepted, Event.IsCommand, hf]
  | @command s cmd data i t hd he =>
    cases hp
    have hruns : ∀ {p : Instr → Prop}, p i → (Event.command cmd data).Runs p :=
      fun hi => ⟨cmd, data, i, rfl, hd, hi⟩
    refine ⟨fun hne => absurd he.nodeId_eq hne, ?lvDur, ?lvRem, ?lvAlive, ?ftCount, ?slots, ?fault, ?rxf,
      ?rxPend, ?latch, ?tx⟩
    case lvDur =>
      exact fun hne => .inr (hruns (he.lvDur_cases.resolve_left hne))
    case lvRem =>
      intro hne
      obtain ⟨hsame, _⟩ | ⟨harm, _⟩ | ⟨_, hsame, _⟩ := he.liveness_cases
      · exact absurd hsame hne
      · exact .inr (.inr (hruns harm))
      · exact absurd hsame hne
    case lvAlive =>
      intro hne
      obtain ⟨_, hsame⟩ | ⟨harm, _⟩ | ⟨hcheck, _, _⟩ := he.liveness_cases
      · exact absurd hsame hne
      · exact .inr (hruns (harm.imp_right (Or.imp_right .inr)))
      · exact .inr (hruns (.inr (.inr hcheck)))
    case ftCount =>
      intro hne
      obtain ⟨hsame, _⟩ | ⟨hi, _⟩ | ⟨mask, pat, hi, _⟩ := he.table_cases
      · exact absurd hsame hne
      · exact .inr (hruns (.inl hi))
      · exact .inr (hruns (.inr ⟨mask, pat, hi⟩))
    case slots =>
      intro k hne
      obtain ⟨hk, hcap, hi⟩ := he.slot_changed hne
      exact .inr ⟨hk, hcap, hruns hi⟩
    case fault =>
      intro hne
      obtain ⟨hf, _⟩ := he.fault_cases.resolve_left hne
      exact .inr ⟨⟨cmd, data, rfl⟩, hf⟩
    case rxf =>
      intro hne
      obtain ⟨hi, hpend, _⟩ := he.received_cases.resolve_left hne
      exact .inr ⟨hpend, hruns hi⟩
    case rxPend =>
      exact fun hne => .inr (.inr (hruns (he.rxPend_cases.resolve_left hne)))
    case latch =>
      intro hne
      obtain ⟨hext, hid, hlen, hdata⟩ := he.latch_eq
      exact absurd (by rw [hext, hid, hlen, hdata]; rfl) hne
    case tx =>
      intro hne
      obtain ⟨gid, len, data, hi, htx⟩ := he.tx_cases.resolve_left hne
      exact .inr ⟨hruns ⟨gid, len, data, hi⟩, _, htx⟩

end Sys2Proof.Machine
end
section
/-! SUPPORT. Slots from `FT_COUNT` on are never observable (R22): two states that differ only there go
through every check and every update side by side. -/

namespace Sys2Proof.Machine

/-- A state that differs only in forgotten slots is the same state with another slot list. -/
theorem SameButForgottenSlots.exists_slots {s t : State} (h : SameButForgottenSlots s t) :
    ∃ l : List FilterEntry, t = { s with ftSlots := l } ∧ l.length = s.ftSlots.length ∧
      l.take s.ftCount.toNat = s.ftSlots.take s.ftCount.toNat :=
  ⟨t.ftSlots, h⟩

/-! ### What the block reads -/

/-- The filter scans valid entries only (R72). -/
theorem SameButForgottenSlots.filterEval_eq {s t : State} (h : SameButForgottenSlots s t) (g : GroupId) :
    filterEval t g = filterEval s g := by
  obtain ⟨l, rfl, _, htake⟩ := h.exists_slots
  simp only [filterEval, validEntries, htake]

/-! ### What the block writes -/

/-- An update that neither reads nor writes the slots and leaves `FT_COUNT` alone keeps the states alike. -/
theorem SameButForgottenSlots.map {s t : State} (h : SameButForgottenSlots s t) (f : State → State)
    (hf : ∀ (u : State) (l : List FilterEntry), f { u with ftSlots := l } = { f u with ftSlots := l })
    (hslots : (f s).ftSlots = s.ftSlots) (hcount : (f s).ftCount = s.ftCount) :
    SameButForgottenSlots (f s) (f t) := by
  obtain ⟨l, rfl, hlen, htake⟩ := h.exists_slots
  have hfl : f { s with ftSlots := l } = { f s with ftSlots := l } := hf s l
  rw [hfl]
  exact ⟨rfl, hlen.trans (congrArg List.length hslots.symm), by simpa only [hslots, hcount] using htake⟩

/-- FREG writes slot `FT_COUNT` and counts it: of the first `FT_COUNT + 1` slots, the last is now the new
entry in both states (R74). -/
theorem take_succ_set_eq {l m : List FilterEntry} {n : Nat} (e : FilterEntry)
    (hlen : l.length = m.length) (htake : l.take n = m.take n) :
    (l.set n e).take (n + 1) = (m.set n e).take (n + 1) := by
  rcases Nat.lt_or_ge n m.length with h | h
  · rw [List.take_succ_eq_append_getElem (by simpa [hlen] using h),
      List.take_succ_eq_append_getElem (by simpa using h), List.take_set_of_le (Nat.le_refl n),
      List.take_set_of_le (Nat.le_refl n), htake, List.getElem_set_self, List.getElem_set_self]
  · rw [List.set_eq_of_length_le h, List.set_eq_of_length_le (hlen ▸ h)]
    rw [List.take_of_length_le (hlen ▸ h), List.take_of_length_le h] at htake
    rw [htake]

/-- Storing an entry keeps the states alike. -/
theorem SameButForgottenSlots.storeFilter_same {s t : State} (h : SameButForgottenSlots s t) (e : FilterEntry)
    (hroom : tableHasRoom s = true) : SameButForgottenSlots (storeFilter e s) (storeFilter e t) := by
  obtain ⟨l, rfl, hlen, htake⟩ := h.exists_slots
  have hcount : (s.ftCount + 1).toNat = s.ftCount.toNat + 1 := by
    have hlt : s.ftCount.toNat < s.filterCapacity.toNat := of_decide_eq_true hroom
    exact BitVec.toNat_add_of_lt (by have := s.filterCapacity.isLt; simp; omega)
  refine ⟨rfl, by simpa using hlen, ?_⟩
  simp only [storeFilter_fields, hcount]
  exact take_succ_set_eq e hlen htake

/-- An empty table forgets every slot (R73). -/
theorem SameButForgottenSlots.clear_same {s t : State} (h : SameButForgottenSlots s t) :
    SameButForgottenSlots { s with ftCount := 0 } { t with ftCount := 0 } := by
  obtain ⟨l, rfl, hlen, _⟩ := h.exists_slots
  exact ⟨rfl, hlen, by simp⟩

/-- Reset overwrites every slot with values that no slot decides (R21). -/
theorem SameButForgottenSlots.resetBlock_same {s t : State} (h : SameButForgottenSlots s t) (id : BitVec 16) :
    SameButForgottenSlots (resetBlock id s) (resetBlock id t) := by
  obtain ⟨l, rfl, _, _⟩ := h.exists_slots
  exact ⟨rfl, rfl, rfl⟩

/-! ### Outcomes -/

/-- Completing with the same response keeps the states alike. -/
theorem SameButForgottenSlots.complete_related {s t : State} (h : SameButForgottenSlots s t) (r : Word64) :
    OutcomesRelated SameButForgottenSlots (complete r s) (complete r t) :=
  h.map (respond r) (fun _ _ => rfl) rfl rfl

/-- The halted check reads only the fault register. -/
theorem SameButForgottenSlots.unlessHalted_related {s t : State} (h : SameButForgottenSlots s t)
    (opc : BitVec 4) {a b : Result} (hab : OutcomesRelated SameButForgottenSlots a b) :
    OutcomesRelated SameButForgottenSlots (unlessHalted opc s a) (unlessHalted opc t b) := by
  have hc := h.complete_related (haltedResponse s.cause)
  obtain ⟨l, rfl, _, _⟩ := h.exists_slots
  unfold unlessHalted
  split
  · exact hc
  · exact hab

/-- Fault entry reads and writes only the fault register. -/
theorem SameButForgottenSlots.raiseFault_related {s t : State} (h : SameButForgottenSlots s t)
    (c : FaultCause) (opc : BitVec 4) :
    OutcomesRelated SameButForgottenSlots (raiseFault c opc s) (raiseFault c opc t) := by
  rw [raiseFault_faultEntered, raiseFault_faultEntered]
  exact h.map (State.faultEntered (code := causeCode c) (opc := opc)) (fun _ _ => rfl) rfl rfl

/-- RECV captures the frame and decides by the valid entries (R87). -/
theorem SameButForgottenSlots.execRecv_related {s t : State} (h : SameButForgottenSlots s t) :
    OutcomesRelated SameButForgottenSlots (execRecv s) (execRecv t) := by
  refine h.unlessHalted_related 0xC ?_
  have hcheck := h.map applyCheck (fun _ _ => rfl) rfl rfl
  have hfault := h.raiseFault_related .stdIdRange 0xC
  have heval := h.filterEval_eq
  obtain ⟨l, rfl, _, _⟩ := h.exists_slots
  split
  · dsimp only
    split
    · next g sid _ =>
      simp only [heval]
      exact ((hcheck.map (arm s.lvDur) (fun _ _ => rfl) rfl rfl).map (takeFrame g sid)
        (fun _ _ => rfl) rfl rfl).complete_related _
    · exact hfault
  · exact hcheck.complete_related _

/-- FREG reads `FT_COUNT` and the capacity, and stores at most one entry (R74). -/
theorem SameButForgottenSlots.execFreg_related {s t : State} (h : SameButForgottenSlots s t)
    (mask pat : BitVec 16) :
    OutcomesRelated SameButForgottenSlots (execFreg mask pat s) (execFreg mask pat t) := by
  refine h.unlessHalted_related 0x6 ?_
  have hstore := h.storeFilter_same ⟨mask, pat⟩
  obtain ⟨l, rfl, _, _⟩ := h.exists_slots
  cases hroom : tableHasRoom s
  · rw [if_neg (by simp), if_neg (by simpa [tableHasRoom] using hroom)]
    exact h.complete_related _
  · rw [if_pos rfl, if_pos (by simpa [tableHasRoom] using hroom)]
    exact (hstore hroom).complete_related _

/-- Every command takes two states that are alike to states that are alike, with the same response. -/
theorem SameButForgottenSlots.exec_related {s t : State} (h : SameButForgottenSlots s t) (i : Instr) :
    OutcomesRelated SameButForgottenSlots (exec i s) (exec i t) := by
  have heval := h.filterEval_eq
  have hfault := h.raiseFault_related .stdIdRange 0xA
  have hregno := h.raiseFault_related .illegalRegno 0xD
  obtain ⟨l, rfl, _, _⟩ := h.exists_slots
  cases i with
  | nop => exact h.unlessHalted_related 0x0 (h.complete_related _)
  | lset dur =>
    exact h.unlessHalted_related 0x1
      ((h.map (fun u => arm dur { u with lvDur := dur }) (fun _ _ => rfl) rfl rfl).complete_related _)
  | lrtg =>
    exact h.unlessHalted_related 0x2
      ((h.map (arm s.lvDur) (fun _ _ => rfl) rfl rfl).complete_related _)
  | lchk => exact h.unlessHalted_related 0x3 ((h.map applyCheck (fun _ _ => rfl) rfl rfl).complete_related _)
  | lqry => exact h.unlessHalted_related 0x4 (h.complete_related _)
  | fclr => exact h.unlessHalted_related 0x5 (h.clear_same.complete_related _)
  | freg mask pat => exact h.execFreg_related mask pat
  | feval gid =>
    refine h.unlessHalted_related 0x7 ?_
    rw [heval]
    exact h.complete_related _
  | fcnt => exact h.unlessHalted_related 0x8 (h.complete_related _)
  | enc gid sid => exact h.unlessHalted_related 0x9 (h.complete_related _)
  | dec ext raw =>
    refine h.unlessHalted_related 0xA ?_
    split
    · exact h.complete_related _
    · exact hfault
  | send gid len data =>
    exact h.unlessHalted_related 0xB
      ((h.map (fun u => emitFrame (sendFrame gid len data u) u) (fun _ _ => rfl) rfl rfl).complete_related _)
  | recv => exact h.execRecv_related
  | rdreg regno =>
    refine h.unlessHalted_related 0xD ?_
    have hread : readRegister regno { s with ftSlots := l } = readRegister regno s := rfl
    rw [hread]
    split
    · exact h.complete_related _
    · exact hregno

/-- The delivery step reads only `RX_PEND` (R84). -/
theorem SameButForgottenSlots.deliver_related {s t : State} (h : SameButForgottenSlots s t) (ext : Bool)
    (id : ArbId) (n : BitVec 8) (bytes : Payload) :
    OutcomesRelated SameButForgottenSlots (deliver ext id n bytes s) (deliver ext id n bytes t) := by
  obtain ⟨l, rfl, hlen, htake⟩ := h.exists_slots
  unfold deliver
  split
  · rfl
  · exact ⟨rfl, hlen, htake⟩

/-- A command word, well-formed or not, is answered alike (R59). -/
theorem SameButForgottenSlots.stepCommand_related {s t : State} (h : SameButForgottenSlots s t)
    (cmd data : Word64) :
    OutcomesRelated SameButForgottenSlots (stepCommand cmd data s) (stepCommand cmd data t) := by
  unfold stepCommand
  cases decode cmd data with
  | ok i => exact h.exec_related i
  | error c => exact h.unlessHalted_related _ (h.raiseFault_related _ _)

/-- Every agent's step takes two states that are alike to states that are alike, or is refused in both. -/
theorem SameButForgottenSlots.step_related {s t : State} (h : SameButForgottenSlots s t) :
    OutcomesRelated SameButForgottenSlots (step s) (step t) := by
  have hdrop := h.map dropPending (fun _ _ => rfl) rfl rfl
  have hpending : t.pending = s.pending := by
    obtain ⟨l, rfl, _, _⟩ := h.exists_slots
    rfl
  unfold step
  rw [hpending]
  cases s.pending with
  | nil => exact h
  | cons e rest =>
    cases e with
    | command cmd data => exact (hdrop.map advanceHost (fun _ _ => rfl) rfl rfl).stepCommand_related cmd data
    | tick => exact hdrop.map tick (fun _ _ => rfl) rfl rfl
    | deliver ext id n bytes => exact hdrop.deliver_related ext id n bytes
    | reset id => exact hdrop.resetBlock_same id

/-- Settles O25: the relation is kept by every check and update that a step is made of, and FCLR writes
`FT_COUNT` only. -/
theorem forgottenSlotsAreUnobservable : Obligations.ForgottenSlotsAreUnobservable := by
  refine ⟨fun s t h => h.step_related, fun s t hf ht => ?_⟩
  cases executes_of_exec ht with
  | halted hhalted => simp [hf] at hhalted
  | fclr => exact ⟨rfl, rfl⟩

end Sys2Proof.Machine
end

section
/-! SUPPORT. The byte order of the payload words (R34): byte k of the SEND data word, of the packed registers
and of the response that reads them. -/

namespace Sys2Proof.Machine

/-! ### SEND's data word -/

/-- Byte k of a data word, numerically. -/
theorem dataByte_eq_ofNat (data : Word64) (k : Nat) :
    dataByte data k = BitVec.ofNat 8 (data.toNat / 2 ^ (8 * k)) := by
  rw [dataByte, BitVec.extractLsb', Nat.shiftRight_eq_div_pow]

/-- Byte k of the bytes that SEND transmits is byte k of its data word. -/
theorem sendBytes_getElem? (data : Word64) (len : BitVec 8) {k : Nat} (hk : k < min len.toNat 8) :
    (sendBytes data len)[k]? = some (dataByte data k) := by
  rw [← payloadCap_toNat] at hk
  simp [sendBytes, hk]

/-- A running block's SEND appends its frame (R86). -/
theorem exec_send_running {s : State} (hf : s.faulted = false) (gid : GroupId) (len : BitVec 8)
    (data : Word64) :
    ∃ t, exec (.send gid len data) s = .next t ∧ t.tx = s.tx ++ [sendFrame gid len data s] :=
  ⟨_, unlessHalted_running hf 0xB _, rfl⟩

/-! ### RXF_DATA through RDREG -/

/-- A byte within the buffer is the buffer's entry. -/
theorem payloadByte_eq_getElem (p : Payload) {k : Nat} (hk : k < 8) : payloadByte p k = p[k] := by
  simp [payloadByte, hk]

/-- Byte k of a packed word is byte k from where the packing starts. -/
theorem packWord32_byte (p : Payload) (start : Nat) {k : Nat} (hk : k < 4) :
    (packWord32 p start).extractLsb' (8 * k) 8 = payloadByte p (start + k) := by
  match k, hk with
  | 0, _ | 1, _ | 2, _ | 3, _ =>
    simp (disch := omega) only [packWord32, Nat.reduceMul, Nat.reduceSub, BitVec.extractLsb'_append_eq_of_le,
      BitVec.extractLsb'_append_eq_of_add_le, BitVec.extractLsb'_eq_self, Nat.add_zero]

/-- A register's value is the low half of RDREG's response (R58). -/
theorem rdregResponse_byte (v : Word32) {k : Nat} (hk : k < 4) :
    (rdregResponse v).extractLsb' (8 * k) 8 = v.extractLsb' (8 * k) 8 :=
  BitVec.extractLsb'_append_eq_of_add_le (by omega)

/-- RDREG of an assigned number answers the register's value, halted or not (R91, R96). -/
theorem exec_rdreg_assigned {s : State} {regno : BitVec 8} {v : Word32}
    (h : readRegister regno s = some v) : exec (.rdreg regno) s = .next (s.answered (rdregResponse v)) := by
  simp only [exec, execRdreg, unlessHalted_system (opc := 0xD) rfl, h]
  rfl

/-- Settles O37: the frame's bytes are those of the data word, and each packed register is read through the
response byte by byte. -/
theorem payloadBytesArePackedLittleEndian : Obligations.PayloadBytesArePackedLittleEndian := by
  refine ⟨fun s gid len data hf => ?send, fun s => ?rdreg⟩
  case send =>
    obtain ⟨t, ht, htx⟩ := exec_send_running hf gid len data
    refine ⟨t, _, ht, htx, fun k hk => ?_⟩
    rw [← dataByte_eq_ofNat]
    exact sendBytes_getElem? data len hk
  case rdreg =>
    have hbyte : ∀ (start : Nat) {k : Nat}, k < 4 →
        (rdregResponse (packWord32 s.rxfData start)).extractLsb' (8 * k) 8 =
          payloadByte s.rxfData (start + k) :=
      fun start _ hk => (rdregResponse_byte _ hk).trans (packWord32_byte _ start hk)
    refine ⟨_, _, _, _, exec_rdreg_assigned rfl, rfl, exec_rdreg_assigned rfl, rfl, fun k hk => ⟨?_, ?_⟩⟩
    · rw [hbyte 0 hk, Nat.zero_add, payloadByte_eq_getElem]
    · rw [hbyte 4 hk, payloadByte_eq_getElem]

end Sys2Proof.Machine
end

section
/-! SUPPORT. The reading commands (R39): past the halted check each of them only answers, with a word or with
a fault that no earlier response decides. -/

namespace Sys2Proof.Machine

/-- The commands that the block answers from its state and that write none of it (R39). -/
def IsReadCommand (i : Instr) : Prop :=
  i = .nop ∨ i = .lqry ∨ i = .fcnt ∨ (∃ g, i = .feval g) ∨ (∃ g d, i = .enc g d) ∨
    (∃ e r, i = .dec e r) ∨ (∃ n, i = .rdreg n)

/-- A command with opcode `opc` that only answers: HALTED, or the word, or the fault (R59). -/
def answerOnly (opc : BitVec 4) (answer : Except FaultCause Word64) (s : State) : Result :=
  unlessHalted opc s
    (match answer with
    | .ok r => complete r s
    | .error c => raiseFault c opc s)

/-- A block that is not halted, and NOP and RDREG in every state, go past the halted check (R59). -/
theorem unlessHalted_of_runs {opc : BitVec 4} {s : State}
    (h : s.faulted = false ∨ runsWhileHalted opc = true) (r : Result) : unlessHalted opc s r = r :=
  h.elim (unlessHalted_running · opc r) (unlessHalted_system · s r)

/-- Past the halted check an answer adds its word. -/
theorem answerOnly_word {opc : BitVec 4} {s : State} (h : s.faulted = false ∨ runsWhileHalted opc = true)
    (r : Word64) : answerOnly opc (.ok r) s = .next (s.answered r) :=
  unlessHalted_of_runs h _

/-- Past the halted check a fault is entered. -/
theorem answerOnly_fault {opc : BitVec 4} {s : State} (h : s.faulted = false ∨ runsWhileHalted opc = true)
    (c : FaultCause) : answerOnly opc (.error c) s = .next (s.faultEntered (causeCode c) opc) :=
  (unlessHalted_of_runs h _).trans (raiseFault_faultEntered c opc s)

/-- In `s` the command only answers, and the same whatever responses were given before. An answer that is no
fault has STATUS OK. -/
def AnswersOnly (i : Instr) (s : State) : Prop :=
  ∃ answer : Except FaultCause Word64,
    (∀ r, answer = .ok r → r.extractLsb' 60 4 = 0) ∧
    ∀ given, exec i { s with responses := given } =
      answerOnly (opcodeOf i) answer { s with responses := given }

/-! ### The fields of the responses (R58) -/

/-- LQRY's response has STATUS OK. -/
theorem aliveResponse_status (alive : Bool) : (aliveResponse alive).extractLsb' 60 4 = 0 :=
  BitVec.extractLsb'_append_eq_of_le (by decide)

/-- FEVAL's response has STATUS OK. -/
theorem fevalResponse_status (matched : Bool) (value : GroupId) :
    (fevalResponse matched value).extractLsb' 60 4 = 0 := by
  rw [fevalResponse, BitVec.extractLsb'_append_eq_of_le (by decide),
    BitVec.extractLsb'_append_eq_of_le (by decide)]
  rfl

/-- FCNT's response has STATUS OK. -/
theorem fcntResponse_status (count : BitVec 8) : (fcntResponse count).extractLsb' 60 4 = 0 :=
  BitVec.extractLsb'_append_eq_of_le (by decide)

/-- ENC's response has STATUS OK. -/
theorem encResponse_status (raw : ArbId) : (encResponse raw).extractLsb' 60 4 = 0 :=
  BitVec.extractLsb'_append_eq_of_le (by decide)

/-- DEC's response has STATUS OK. -/
theorem decResponse_status (gid : GroupId) (sid : BitVec 18) :
    (decResponse gid sid).extractLsb' 60 4 = 0 := by
  rw [decResponse, BitVec.extractLsb'_append_eq_of_le (by decide),
    BitVec.extractLsb'_append_eq_of_le (by decide), BitVec.extractLsb'_append_eq_of_le (by decide)]
  rfl

/-- RDREG's response has STATUS OK. -/
theorem rdregResponse_status (value : Word32) : (rdregResponse value).extractLsb' 60 4 = 0 :=
  BitVec.extractLsb'_append_eq_of_le (by decide)

/-- The response of a halted block has STATUS HALTED. -/
theorem haltedResponse_status (cause : BitVec 8) : (haltedResponse cause).extractLsb' 60 4 = 2 :=
  BitVec.extractLsb'_append_eq_of_le (by decide)

/-- The response of a fault has STATUS FAULT. -/
theorem faultResponse_status (cause : BitVec 8) : (faultResponse cause).extractLsb' 60 4 = 1 :=
  BitVec.extractLsb'_append_eq_of_le (by decide)

/-- The cause is the low byte of a fault's response. -/
theorem faultResponse_cause (cause : BitVec 8) : (faultResponse cause).extractLsb' 0 8 = cause := by
  rw [faultResponse, BitVec.extractLsb'_append_eq_of_add_le (by decide), BitVec.extractLsb'_eq_self]

/-! ### What a reading command does -/

/-- A command whose answer is a word with STATUS OK that no earlier response decides. -/
theorem AnswersOnly.of_word {i : Instr} {s : State} {r : Word64} (hstatus : r.extractLsb' 60 4 = 0)
    (h : ∀ given, exec i { s with responses := given } =
      answerOnly (opcodeOf i) (.ok r) { s with responses := given }) : AnswersOnly i s := by
  refine ⟨.ok r, fun r' hr => ?_, h⟩
  cases hr
  exact hstatus

/-- A command that no earlier response keeps from faulting. -/
theorem AnswersOnly.of_fault {i : Instr} {s : State} {c : FaultCause}
    (h : ∀ given, exec i { s with responses := given } =
      answerOnly (opcodeOf i) (.error c) { s with responses := given }) : AnswersOnly i s :=
  ⟨.error c, (fun _ hr => nomatch hr), h⟩

/-- DEC answers by its operands alone (R82). -/
theorem answersOnly_dec (ext : Bool) (raw : ArbId) (s : State) : AnswersOnly (.dec ext raw) s := by
  cases hd : codecDecode ext raw with
  | none =>
    refine .of_fault (c := .stdIdRange) fun given => ?_
    simp only [exec, execDec, hd]
    rfl
  | some fields =>
    refine .of_word (decResponse_status fields.1 fields.2) fun given => ?_
    simp only [exec, execDec, hd]
    rfl

/-- RDREG answers by the register, and no register shows the responses (R28, R91). -/
theorem answersOnly_rdreg (regno : BitVec 8) (s : State) : AnswersOnly (.rdreg regno) s := by
  have hread (given) : readRegister regno { s with responses := given } = readRegister regno s := rfl
  cases hr : readRegister regno s with
  | none =>
    refine .of_fault (c := .illegalRegno) fun given => ?_
    simp only [exec, execRdreg, hread, hr]
    rfl
  | some v =>
    refine .of_word (rdregResponse_status v) fun given => ?_
    simp only [exec, execRdreg, hread, hr]
    rfl

/-- Every reading command only answers. -/
theorem IsReadCommand.answersOnly {i : Instr} (hi : IsReadCommand i) (s : State) : AnswersOnly i s := by
  obtain rfl | rfl | rfl | ⟨gid, rfl⟩ | ⟨gid, sid, rfl⟩ | ⟨ext, raw, rfl⟩ | ⟨regno, rfl⟩ := hi
  · exact .of_word (r := okResponse) rfl fun _ => rfl
  · exact .of_word (aliveResponse_status s.lvAlive) fun _ => rfl
  · exact .of_word (fcntResponse_status s.ftCount) fun _ => rfl
  · exact .of_word (fevalResponse_status (filterEval s gid).1 (filterEval s gid).2) fun _ => rfl
  · exact .of_word (encResponse_status (codecEncode gid sid)) fun _ => rfl
  · exact answersOnly_dec ext raw s
  · exact answersOnly_rdreg regno s

/-- A command that only answers adds a word, and the same word when it is executed again, or enters the
fault. -/
theorem AnswersOnly.exec_cases {i : Instr} {s : State} (h : AnswersOnly i s) :
    (∃ r, r.extractLsb' 60 4 ≠ 1 ∧ exec i s = .next (s.answered r) ∧
      exec i (s.answered r) = .next ((s.answered r).answered r)) ∨
    ∃ code, exec i s = .next (s.faultEntered code (opcodeOf i)) := by
  obtain ⟨answer, hstatus, hexec⟩ := h
  have hfirst : exec i s = answerOnly (opcodeOf i) answer s := hexec s.responses
  have hsecond (r) : exec i (s.answered r) = answerOnly (opcodeOf i) answer (s.answered r) := hexec _
  obtain ⟨hf, ho, _⟩ | ⟨hruns, _⟩ := unlessHalted_cases (opcodeOf i) s (.next s)
  · have hne : (haltedResponse s.cause).extractLsb' 60 4 ≠ 1 := by
      rw [haltedResponse_status]
      decide
    exact .inl ⟨haltedResponse s.cause, hne, exec_halted hf ho, exec_halted (s := s.answered _) hf ho⟩
  · cases answer with
    | ok r =>
      have hne : r.extractLsb' 60 4 ≠ 1 := by
        rw [hstatus r rfl]
        decide
      exact .inl ⟨r, hne, hfirst.trans (answerOnly_word hruns r),
        (hsecond r).trans (answerOnly_word (s := s.answered r) hruns r)⟩
    | error c => exact .inr ⟨causeCode c, hfirst.trans (answerOnly_fault hruns c)⟩

/-- Settles O40: each reading command only answers, and that answer is a word, the same again, or the fault. -/
theorem readCommandsHaveNoSideEffect : Obligations.ReadCommandsHaveNoSideEffect := by
  intro s i hi
  obtain ⟨r, hstatus, hfirst, hagain⟩ | ⟨code, hfault⟩ := (IsReadCommand.answersOnly hi s).exec_cases
  · exact ⟨_, r, hfirst, rfl, fun _ => ⟨rfl, hagain⟩, fun h => absurd h hstatus⟩
  · refine ⟨_, faultResponse code, hfault, rfl, fun h => absurd (faultResponse_status code) h, fun _ => ?_⟩
    rw [faultResponse_cause]

end Sys2Proof.Machine
end

section
/-! SUPPORT. The two parts of a command word, the opcode `CMD[63:60]` and the operand bits `CMD[59:0]`: the
operand fields of a word whose reserved bits are 0 are its operand bits, and the fields of an encoded word
are the operands (R44 to R52). -/

namespace Sys2Proof

/-- The opcode before the operand bits is the word (R44). -/
theorem opcodeField_append_operands (c : Word64) : opcodeField c ++ c.extractLsb' 0 60 = c :=
  BitVec.extractLsb'_append_extractLsb' (w := 4) (len := 60)

/-- Two words with the same opcode and the same operand bits are the same word. -/
theorem word_eq_of_parts {c d : Word64} (hopc : opcodeField c = opcodeField d)
    (hops : c.extractLsb' 0 60 = d.extractLsb' 0 60) : c = d := by
  rw [← opcodeField_append_operands c, hopc, hops, opcodeField_append_operands]

/-- A command is written as the word that has its opcode and its operand bits. -/
theorem encodeCmd_eq_of_parts {i : Instr} {c : Word64} (hopc : opcodeOf i = opcodeField c)
    (hops : operandBits i = c.extractLsb' 0 60) : encodeCmd i = c := by
  rw [encodeCmd, hopc, hops, opcodeField_append_operands]

/-! ### The fields of a word whose reserved bits are 0 -/

/-- A word of format T is its reserved bits and `DUR` (R46). -/
theorem operandBits_T {c : Word64} (h : c &&& reservedMask .T = 0) :
    operandBits (.lset (durField c)) = c.extractLsb' 0 60 := by
  have hres : c.extractLsb' 32 28 = 0#28 := (reserved_T c).mp h
  simp only [operandBits, ← hres, durField, BitVec.extractLsb'_append_extractLsb'_eq_extractLsb']

/-- A word of format MP is its reserved bits, `MASK` and `PAT` (R47). -/
theorem operandBits_MP {c : Word64} (h : c &&& reservedMask .MP = 0) :
    operandBits (.freg (maskField c) (patField c)) = c.extractLsb' 0 60 := by
  have hres : c.extractLsb' 32 28 = 0#28 := (reserved_MP c).mp h
  simp only [operandBits, ← hres, maskField, patField, BitVec.extractLsb'_append_extractLsb'_eq_extractLsb']

/-- A word of format G is its reserved bits and `GID` (R48). -/
theorem operandBits_G {c : Word64} (h : c &&& reservedMask .G = 0) :
    operandBits (.feval (gidLowField c)) = c.extractLsb' 0 60 := by
  have hres : c.extractLsb' 16 44 = 0#44 := (reserved_G c).mp h
  simp only [operandBits, ← hres, gidLowField, BitVec.extractLsb'_append_extractLsb'_eq_extractLsb']

/-- A word of format GS is its reserved bits, `GID` and `SID` (R49). -/
theorem operandBits_GS {c : Word64} (h : c &&& reservedMask .GS = 0) :
    operandBits (.enc (gidHighField c) (sidField c)) = c.extractLsb' 0 60 := by
  have hres : c.extractLsb' 48 12 = 0#12 := (reserved_GS c).mp h
  simp only [operandBits, ← hres, gidHighField, sidField,
    BitVec.extractLsb'_append_extractLsb'_eq_extractLsb']

/-- `EXT` as a field of one bit (R50). -/
theorem ofBool_extField (c : Word64) : BitVec.ofBool (extField c) = c.extractLsb' 32 1 := by
  rw [extField, BitVec.getLsbD_eq_extractLsb']
  generalize c.extractLsb' 32 1 = ext
  revert ext
  decide

/-- A word of format XR is its two reserved fields, `EXT` and `RAW` (R50). -/
theorem operandBits_XR {c : Word64} (h : c &&& reservedMask .XR = 0) :
    operandBits (.dec (extField c) (rawField c)) = c.extractLsb' 0 60 := by
  obtain ⟨hhi, hlo⟩ : c.extractLsb' 33 27 = 0#27 ∧ c.extractLsb' 29 3 = 0#3 := (reserved_XR c).mp h
  simp only [operandBits, ← hhi, ← hlo, ofBool_extField, rawField,
    BitVec.extractLsb'_append_extractLsb'_eq_extractLsb']

/-- A word of format GL is its two reserved fields, `GID` and `LEN` (R51). -/
theorem operandBits_GL {c : Word64} (h : c &&& reservedMask .GL = 0) (data : Word64) :
    operandBits (.send (gidHighField c) (lenField c) data) = c.extractLsb' 0 60 := by
  obtain ⟨hhi, hlo⟩ : c.extractLsb' 48 12 = 0#12 ∧ c.extractLsb' 8 24 = 0#24 := (reserved_GL c).mp h
  simp only [operandBits, ← hhi, ← hlo, gidHighField, lenField,
    BitVec.extractLsb'_append_extractLsb'_eq_extractLsb']

/-- A word of format R is its reserved bits and `REGNO` (R52). -/
theorem operandBits_R {c : Word64} (h : c &&& reservedMask .R = 0) :
    operandBits (.rdreg (regnoField c)) = c.extractLsb' 0 60 := by
  have hres : c.extractLsb' 8 52 = 0#52 := (reserved_R c).mp h
  simp only [operandBits, ← hres, regnoField, BitVec.extractLsb'_append_extractLsb'_eq_extractLsb']

/-! ### The fields of an encoded word -/

/-- A field below the opcode is a field of the operand bits. -/
theorem encodeCmd_field (i : Instr) {lo len : Nat} (h : lo + len ≤ 60) :
    (encodeCmd i).extractLsb' lo len = (operandBits i).extractLsb' lo len :=
  BitVec.extractLsb'_append_eq_of_add_le h

@[simp] theorem durField_encodeCmd (dur : Word32) : durField (encodeCmd (.lset dur)) = dur :=
  (encodeCmd_field _ (by decide)).trans BitVec.extractLsb'_append_eq_right

@[simp] theorem maskField_encodeCmd (mask pat : BitVec 16) :
    maskField (encodeCmd (.freg mask pat)) = mask :=
  (encodeCmd_field _ (by decide)).trans <|
    (BitVec.extractLsb'_append_eq_of_le (by decide)).trans BitVec.extractLsb'_append_eq_right

@[simp] theorem patField_encodeCmd (mask pat : BitVec 16) : patField (encodeCmd (.freg mask pat)) = pat :=
  (encodeCmd_field _ (by decide)).trans BitVec.extractLsb'_append_eq_right

@[simp] theorem gidLowField_encodeCmd (gid : GroupId) : gidLowField (encodeCmd (.feval gid)) = gid :=
  (encodeCmd_field _ (by decide)).trans BitVec.extractLsb'_append_eq_right

@[simp] theorem gidHighField_encodeCmd_enc (gid : GroupId) (sid : BitVec 32) :
    gidHighField (encodeCmd (.enc gid sid)) = gid :=
  (encodeCmd_field _ (by decide)).trans <|
    (BitVec.extractLsb'_append_eq_of_le (by decide)).trans BitVec.extractLsb'_append_eq_right

@[simp] theorem sidField_encodeCmd (gid : GroupId) (sid : BitVec 32) :
    sidField (encodeCmd (.enc gid sid)) = sid :=
  (encodeCmd_field _ (by decide)).trans BitVec.extractLsb'_append_eq_right

@[simp] theorem extField_encodeCmd (ext : Bool) (raw : ArbId) :
    extField (encodeCmd (.dec ext raw)) = ext := by
  have hfield : (encodeCmd (.dec ext raw)).extractLsb' 32 1 = BitVec.ofBool ext :=
    (encodeCmd_field _ (by decide)).trans <|
      (BitVec.extractLsb'_append_eq_of_le (by decide)).trans <|
        (BitVec.extractLsb'_append_eq_of_le (by decide)).trans BitVec.extractLsb'_append_eq_right
  rw [extField, BitVec.getLsbD_eq_extractLsb', hfield]
  cases ext <;> rfl

@[simp] theorem rawField_encodeCmd (ext : Bool) (raw : ArbId) : rawField (encodeCmd (.dec ext raw)) = raw :=
  (encodeCmd_field _ (by decide)).trans BitVec.extractLsb'_append_eq_right

@[simp] theorem gidHighField_encodeCmd_send (gid : GroupId) (len : BitVec 8) (data : Word64) :
    gidHighField (encodeCmd (.send gid len data)) = gid :=
  (encodeCmd_field _ (by decide)).trans <|
    (BitVec.extractLsb'_append_eq_of_le (by decide)).trans <|
      (BitVec.extractLsb'_append_eq_of_le (by decide)).trans BitVec.extractLsb'_append_eq_right

@[simp] theorem lenField_encodeCmd (gid : GroupId) (len : BitVec 8) (data : Word64) :
    lenField (encodeCmd (.send gid len data)) = len :=
  (encodeCmd_field _ (by decide)).trans BitVec.extractLsb'_append_eq_right

@[simp] theorem regnoField_encodeCmd (regno : BitVec 8) : regnoField (encodeCmd (.rdreg regno)) = regno :=
  (encodeCmd_field _ (by decide)).trans BitVec.extractLsb'_append_eq_right

end Sys2Proof
end

section
/-! SUPPORT. The opcode map as what its rows fix (R54 to R56): a legal opcode and a format whose reserved bits
are 0. The decoder reads exactly the words of the map, and encoder and decoder are inverse. -/

namespace Sys2Proof

/-! ### What a row of the opcode map covers -/

/-- The opcodes of the opcode map (R54, R55). -/
def legalOpcodes : List (BitVec 4) :=
  [0x0, 0x1, 0x2, 0x3, 0x4, 0x5, 0x6, 0x7, 0x8, 0x9, 0xA, 0xB, 0xC, 0xD]

/-- The format of an opcode's commands (R45 to R52, R54). -/
def formatOf (opc : BitVec 4) : Format :=
  match opc.toNat with
  | 0x1 => .T
  | 0x6 => .MP
  | 0x7 => .G
  | 0x9 => .GS
  | 0xA => .XR
  | 0xB => .GL
  | 0xD => .R
  | _ => .N

/-- Every opcode is legal but 0xE and 0xF (R55). -/
theorem mem_legalOpcodes_iff {opc : BitVec 4} : opc ∈ legalOpcodes ↔ ¬(opc = 0xE ∨ opc = 0xF) := by
  revert opc
  decide

/-- A command's opcode is legal. -/
theorem opcodeOf_mem_legalOpcodes (i : Instr) : opcodeOf i ∈ legalOpcodes := by
  cases i <;> simp [opcodeOf, legalOpcodes]

/-- Each row fixes the opcode and the reserved bits of the opcode's format, and stands at its opcode's place
in the map. -/
theorem opcodeTable_row : ∀ r ∈ opcodeTable, opcodeField r.value ∈ legalOpcodes ∧
    r.value.extractLsb' 0 60 = 0 ∧
    r.mask = 0xF000000000000000 ||| reservedMask (formatOf (opcodeField r.value)) ∧
    opcodeTable[(opcodeField r.value).toNat]? = some r := by
  decide

/-- Each legal opcode has a row. -/
theorem exists_row_of_legal : ∀ opc ∈ legalOpcodes, ∃ r ∈ opcodeTable, opcodeField r.value = opc := by
  decide

/-- A reserved-field mask leaves the opcode bits out (R56). -/
theorem opcodeField_reservedMask (f : Format) : opcodeField (reservedMask f) = 0 := by
  cases f <;> decide

/-- A word has a value under the opcode bits and a reserved-field mask exactly when it has the value's opcode
and its reserved bits are 0. -/
theorem and_opcodeAndReserved_eq_iff {v : Word64} (hv : v.extractLsb' 0 60 = 0) (f : Format) (c : Word64) :
    c &&& (0xF000000000000000 ||| reservedMask f) = v ↔
      opcodeField c = opcodeField v ∧ c &&& reservedMask f = 0 := by
  have hopc (m : Word64) : opcodeField (c &&& m) = opcodeField c &&& opcodeField m := BitVec.extractLsb'_and
  have htop : opcodeField (c &&& (0xF000000000000000 ||| reservedMask f)) = opcodeField c := by
    have hmask : opcodeField (0xF000000000000000 ||| reservedMask f) = BitVec.allOnes 4 := by
      cases f <;> decide
    rw [hopc, hmask, BitVec.and_allOnes]
  have hclear : opcodeField (c &&& reservedMask f) = 0 := by
    rw [hopc, opcodeField_reservedMask]
    exact BitVec.and_zero
  have hlow : (c &&& (0xF000000000000000 ||| reservedMask f)).extractLsb' 0 60 =
      (c &&& reservedMask f).extractLsb' 0 60 := by
    have hmask : (0xF000000000000000 ||| reservedMask f).extractLsb' 0 60 =
        (reservedMask f).extractLsb' 0 60 := by cases f <;> decide
    rw [BitVec.extractLsb'_and, hmask, ← BitVec.extractLsb'_and]
  constructor
  · intro h
    refine ⟨htop.symm.trans (congrArg opcodeField h), word_eq_of_parts hclear ?_⟩
    rw [← hlow, h, hv]
    rfl
  · rintro ⟨ho, hr⟩
    refine word_eq_of_parts (htop.trans ho) ?_
    rw [hlow, hr, hv]
    rfl

/-- A row covers the words of its opcode whose reserved bits are 0 (R54, R56). -/
theorem OpcodeRow.and_mask_eq_iff {r : OpcodeRow} (hr : r ∈ opcodeTable) (c : Word64) :
    c &&& r.mask = r.value ↔
      opcodeField c = opcodeField r.value ∧ c &&& reservedMask (formatOf (opcodeField c)) = 0 := by
  obtain ⟨_, hv, hmask, _⟩ := opcodeTable_row r hr
  rw [hmask, and_opcodeAndReserved_eq_iff hv]
  refine and_congr_right fun ho => ?_
  rw [ho]

/-- A word is well-formed when its opcode is legal and its reserved bits are 0 (R44, R55, R56). -/
theorem wellFormedWord_iff (c : Word64) :
    wellFormedWord c = true ↔
      opcodeField c ∈ legalOpcodes ∧ c &&& reservedMask (formatOf (opcodeField c)) = 0 := by
  simp only [wellFormedWord, List.any_eq_true, OpcodeRow.covers, beq_iff_eq]
  constructor
  · rintro ⟨r, hr, hcovers⟩
    obtain ⟨ho, hclear⟩ := (r.and_mask_eq_iff hr c).mp hcovers
    obtain ⟨hlegal, _⟩ := opcodeTable_row r hr
    exact ⟨ho ▸ hlegal, hclear⟩
  · rintro ⟨hlegal, hclear⟩
    obtain ⟨r, hr, ho⟩ := exists_row_of_legal _ hlegal
    exact ⟨r, hr, (r.and_mask_eq_iff hr c).mpr ⟨ho.symm, hclear⟩⟩

/-! ### The outcomes of the decoder -/

/-- The decoder refuses an illegal opcode before it looks at another bit (R55). -/
theorem decode_illegalOpcode {c : Word64} (h : opcodeField c = 0xE ∨ opcodeField c = 0xF) (data : Word64) :
    decode c data = .error .illegalOpcode := by
  rcases h with h | h <;> exact decode_of_opcode h data

/-- With a legal opcode, the decoder checks the reserved bits of the opcode's format and reads a command of
that opcode, which is written as the same word (R54, R56). -/
theorem decode_legalOpcode {c : Word64} {opc : BitVec 4} (ho : opcodeField c = opc)
    (hlegal : opc ∈ legalOpcodes) (data : Word64) :
    ∃ i, decode c data = ifReservedClear (formatOf opc) c i ∧ opcodeOf i = opc ∧
      (c &&& reservedMask (formatOf opc) = 0 → encodeCmd i = c) := by
  have hread {i : Instr} (hi : opcodeOf i = opc) (hops : operandBits i = c.extractLsb' 0 60) :
      encodeCmd i = c := encodeCmd_eq_of_parts (hi.trans ho.symm) hops
  have hN (h : c &&& reservedMask .N = 0) : (0 : BitVec 60) = c.extractLsb' 0 60 :=
    ((reserved_N c).mp h).symm
  simp only [legalOpcodes, List.mem_cons, List.not_mem_nil, or_false] at hlegal
  obtain rfl | rfl | rfl | rfl | rfl | rfl | rfl | rfl | rfl | rfl | rfl | rfl | rfl | rfl := hlegal
  all_goals refine ⟨_, decode_of_opcode ho data, rfl, fun h => hread rfl ?_⟩
  exacts [hN h, operandBits_T h, hN h, hN h, hN h, hN h, operandBits_MP h, operandBits_G h, hN h,
    operandBits_GS h, operandBits_XR h, operandBits_GL h data, hN h, operandBits_R h]

/-- A well-formed word decodes to a command of its opcode that is written as that word (R54). -/
theorem decode_wellFormed {c : Word64} (h : wellFormedWord c = true) (data : Word64) :
    ∃ i, decode c data = .ok i ∧ opcodeOf i = opcodeField c ∧ encodeCmd i = c := by
  obtain ⟨hlegal, hclear⟩ := (wellFormedWord_iff c).mp h
  obtain ⟨i, hd, hi, hword⟩ := decode_legalOpcode rfl hlegal data
  exact ⟨i, hd.trans (if_pos hclear), hi, hword hclear⟩

/-- A word with a legal opcode that is not well-formed has a reserved bit (R56). -/
theorem decode_reservedBits {c : Word64} (hlegal : opcodeField c ∈ legalOpcodes)
    (h : wellFormedWord c = false) (data : Word64) : decode c data = .error .reservedBits := by
  obtain ⟨i, hd, _⟩ := decode_legalOpcode rfl hlegal data
  refine hd.trans (if_neg fun hclear => ?_)
  simp [(wellFormedWord_iff c).mpr ⟨hlegal, hclear⟩] at h

/-- What decodes is a well-formed word (R55, R56). -/
theorem wellFormedWord_of_decode {c data : Word64} {i : Instr} (h : decode c data = .ok i) :
    wellFormedWord c = true := by
  by_cases hlegal : opcodeField c ∈ legalOpcodes
  · by_contra hwf
    cases h.symm.trans (decode_reservedBits hlegal (Bool.eq_false_of_not_eq_true hwf) data)
  · rw [mem_legalOpcodes_iff, not_not] at hlegal
    cases h.symm.trans (decode_illegalOpcode hlegal data)

/-- What decodes has the command's opcode, and is the command's word (R44, R54). -/
theorem encodeCmd_of_decode {c data : Word64} {i : Instr} (h : decode c data = .ok i) :
    opcodeOf i = opcodeField c ∧ encodeCmd i = c := by
  obtain ⟨j, hd, hj⟩ := decode_wellFormed (wellFormedWord_of_decode h) data
  cases h.symm.trans hd
  exact hj

/-- The decoder reads the data word for SEND only (R57). -/
theorem decode_data_irrelevant {c : Word64} (h : opcodeField c ≠ 0xB) (data data' : Word64) :
    decode c data = decode c data' := by
  unfold decode
  split
  case h_12 hB => exact absurd (BitVec.eq_of_toNat_eq hB) h
  all_goals rfl

/-- SEND's operand is the data word (R51, R57). -/
theorem encodeData_of_decode_send {c data : Word64} {i : Instr} (h : decode c data = .ok i)
    (ho : opcodeField c = 0xB) : encodeData i = data := by
  have hsend : decode c data = ifReservedClear .GL c (.send (gidHighField c) (lenField c) data) :=
    decode_of_opcode ho data
  obtain ⟨_, hok⟩ | ⟨_, herr⟩ := ifReservedClear_cases .GL c (.send (gidHighField c) (lenField c) data)
  · cases (h.symm.trans hsend).trans hok
    rfl
  · cases (h.symm.trans hsend).trans herr

/-! ### Encoder and decoder are inverse -/

/-- The encoder writes a word of the opcode map (R44, R54). -/
theorem encodeCmd_legal (i : Instr) : Laws.EncodesLegally.Statement i := by
  cases i with
  | nop => exact Laws.EncodesLegally.nop
  | lset dur => exact Laws.EncodesLegally.lset dur
  | lrtg => exact Laws.EncodesLegally.lrtg
  | lchk => exact Laws.EncodesLegally.lchk
  | lqry => exact Laws.EncodesLegally.lqry
  | fclr => exact Laws.EncodesLegally.fclr
  | freg mask pat => exact Laws.EncodesLegally.freg mask pat
  | feval gid => exact Laws.EncodesLegally.feval gid
  | fcnt => exact Laws.EncodesLegally.fcnt
  | enc gid sid => exact Laws.EncodesLegally.enc gid sid
  | dec ext raw => exact Laws.EncodesLegally.dec ext raw
  | send gid len data => exact Laws.EncodesLegally.send gid len data
  | recv => exact Laws.EncodesLegally.recv
  | rdreg regno => exact Laws.EncodesLegally.rdreg regno

/-- Settles O1: the encoded word is well-formed, so the decoder reads the fields of its opcode's format, and
each of them is the operand. -/
theorem decodeOfEncodeIsTheInstruction : Obligations.DecodeOfEncodeIsTheInstruction := by
  intro i
  change decode (encodeCmd i) (encodeData i) = .ok i
  obtain ⟨ho, hwf⟩ := encodeCmd_legal i
  have hclear : encodeCmd i &&& reservedMask (formatOf (opcodeOf i)) = 0 := by
    rw [← ho]
    exact ((wellFormedWord_iff _).mp hwf).2
  refine (decode_of_opcode ho _).trans ?_
  cases i with
  | nop | lrtg | lchk | lqry | fclr | fcnt | recv => exact if_pos hclear
  | lset dur => exact (if_pos hclear).trans (by rw [durField_encodeCmd])
  | freg mask pat => exact (if_pos hclear).trans (by rw [maskField_encodeCmd, patField_encodeCmd])
  | feval gid => exact (if_pos hclear).trans (by rw [gidLowField_encodeCmd])
  | enc gid sid => exact (if_pos hclear).trans (by rw [gidHighField_encodeCmd_enc, sidField_encodeCmd])
  | dec ext raw => exact (if_pos hclear).trans (by rw [extField_encodeCmd, rawField_encodeCmd])
  | send gid len data =>
    exact (if_pos hclear).trans (by rw [gidHighField_encodeCmd_send, lenField_encodeCmd, encodeData])
  | rdreg regno => exact (if_pos hclear).trans (by rw [regnoField_encodeCmd])

/-- Settles O2: a word whose reserved bits are 0 is the opcode and the operand fields that the decoder reads
from it. -/
theorem encodeOfDecodeIsTheCommandWord : Obligations.EncodeOfDecodeIsTheCommandWord :=
  fun _ _ _ h => ⟨(encodeCmd_of_decode h).2, encodeData_of_decode_send h⟩

/-- Settles O3: decoder and opcode map both ask for a legal opcode and no reserved bit, and the row that covers
the word is the one at its opcode. -/
theorem decodeAcceptsExactlyTheOpcodeMap : Obligations.DecodeAcceptsExactlyTheOpcodeMap := by
  refine fun cmd data => ⟨⟨fun ⟨i, hd⟩ => wellFormedWord_of_decode hd, fun hwf => ?_⟩, fun i hd => ?_⟩
  · obtain ⟨i, hd, _⟩ := decode_wellFormed hwf data
    exact ⟨i, hd⟩
  · obtain ⟨hlegal, hclear⟩ := (wellFormedWord_iff cmd).mp (wellFormedWord_of_decode hd)
    obtain ⟨r, hr, ho⟩ := exists_row_of_legal _ hlegal
    obtain ⟨_, _, _, hplace⟩ := opcodeTable_row r hr
    refine ⟨r, ?_, (r.and_mask_eq_iff hr cmd).mpr ⟨ho.symm, hclear⟩⟩
    rw [(encodeCmd_of_decode hd).1, ← ho, hplace]

/-- Settles O7: each word is the encoder's word of its command. -/
theorem sampleWordsDecode : Obligations.SampleWordsDecode :=
  ⟨decodeOfEncodeIsTheInstruction .nop, decodeOfEncodeIsTheInstruction (.lset 100),
    decodeOfEncodeIsTheInstruction (.freg 0x0F 0x01), decodeOfEncodeIsTheInstruction (.enc 0x123 0xABCD),
    decodeOfEncodeIsTheInstruction (.dec true 0x48CABCD),
    decodeOfEncodeIsTheInstruction (.send 0x155 10 0x0807060504030201),
    decodeOfEncodeIsTheInstruction .recv, decodeOfEncodeIsTheInstruction (.rdreg 0x0A)⟩

end Sys2Proof
end

section
/-! SUPPORT. The step of a command word by what the decoder makes of it, and the order of its checks (R59). -/

namespace Sys2Proof.Machine

/-- A word that decodes is executed as its command (R59). -/
theorem step_of_decode_ok {cmd data : Word64} {i : Instr} (hd : decode cmd data = .ok i) (s : State) :
    step (s.withNext (.command cmd data)) = exec i s.accepted := by
  rw [step_command, stepCommand, hd]
  rfl

/-- A word that does not decode is answered HALTED, or faults with its own opcode (R59, R95, R96). -/
theorem step_of_decode_error {cmd data : Word64} {c : FaultCause} (hd : decode cmd data = .error c)
    (s : State) :
    step (s.withNext (.command cmd data)) =
      if s.faulted = true ∧ runsWhileHalted (opcodeField cmd) = false then .next s.accepted.haltedAnswer
      else .next (s.accepted.faultEntered (causeCode c) (opcodeField cmd)) := by
  rw [step_command, stepCommand, hd]
  exact rejectCommand_eq c cmd s.accepted

/-- The opcodes that do not run while halted are those other than NOP's and RDREG's (R59). -/
theorem runsWhileHalted_eq_false_iff (opc : BitVec 4) :
    runsWhileHalted opc = false ↔ opc ≠ 0x0 ∧ opc ≠ 0xD := by
  rw [← Bool.not_eq_true, runsWhileHalted_iff, not_or]

/-- While halted, every word but those of NOP and RDREG is answered HALTED, before it is looked at further
(R59, R96). -/
theorem step_halted {s : State} (hf : s.faulted = true) {cmd : Word64}
    (ho : runsWhileHalted (opcodeField cmd) = false) (data : Word64) :
    step (s.withNext (.command cmd data)) = .next s.accepted.haltedAnswer := by
  cases hd : decode cmd data with
  | ok i =>
    rw [step_of_decode_ok hd, exec_halted (s := s.accepted) hf]
    rw [(encodeCmd_of_decode hd).1, ho]
  | error c => rw [step_of_decode_error hd, if_pos ⟨hf, ho⟩]

/-- Past the halted check, a word that does not decode enters its fault (R59, R95). -/
theorem step_rejected {s : State} {cmd data : Word64} {c : FaultCause} (hd : decode cmd data = .error c)
    (h : ¬(s.faulted = true ∧ runsWhileHalted (opcodeField cmd) = false)) :
    step (s.withNext (.command cmd data)) =
      .next (s.accepted.faultEntered (causeCode c) (opcodeField cmd)) := by
  rw [step_of_decode_error hd, if_neg h]

/-- A block that is not faulted is past the halted check. -/
theorem not_halted_of_running {s : State} (h : s.faulted = false) (p : Prop) : ¬(s.faulted = true ∧ p) := by
  simp [h]

/-- Settles O8: the pending command is the next step of the state without it. -/
theorem stepRunsTheDecodedCommand : Obligations.StepRunsTheDecodedCommand := by
  intro s cmd data rest i hp hd
  rw [withNext_of_pending hp, step_of_decode_ok hd]
  rfl

/-- Settles O4: the decoder refuses the opcode, and a block that is not faulted takes the fault. -/
theorem illegalOpcodesFault : Obligations.IllegalOpcodesFault :=
  fun _ _ data hf ho => step_rejected (decode_illegalOpcode ho data) (not_halted_of_running hf _)

/-- A row of R56's table has a legal opcode and the mask of that opcode's format. -/
theorem legal_of_mem_reservedRows {opc : BitVec 4} {mask : Word64}
    (h : (opc, mask) ∈ legalOpcodes.map fun o => (o, reservedMask (formatOf o))) :
    opc ∈ legalOpcodes ∧ mask = reservedMask (formatOf opc) := by
  obtain ⟨o, ho, heq⟩ := List.mem_map.mp h
  cases heq
  exact ⟨ho, rfl⟩

/-- Settles O5: a 1 under the mask of the opcode's format makes the word no word of the opcode map. -/
theorem reservedBitsFault : Obligations.ReservedBitsFault := by
  intro s cmd data mask hf hrow hbit
  obtain ⟨hlegal, rfl⟩ := legal_of_mem_reservedRows hrow
  have hwf : wellFormedWord cmd = false :=
    Bool.eq_false_of_not_eq_true fun h => hbit ((wellFormedWord_iff cmd).mp h).2
  exact step_rejected (decode_reservedBits hlegal hwf data) (not_halted_of_running hf _)

/-- Settles O9: the halted check comes first; past it the decoder refuses the opcode, or a reserved bit, or
gives the command. -/
theorem commandChecksRunInOrder : Obligations.CommandChecksRunInOrder := by
  intro s cmd data opc
  rw [← runsWhileHalted_eq_false_iff]
  refine ⟨fun ⟨hf, ho⟩ => step_halted hf ho data, fun hpast => ⟨?illegal, ?reserved, ?wellFormed⟩⟩
  case illegal => exact fun ho => step_rejected (decode_illegalOpcode ho data) hpast
  case reserved =>
    intro ho hwf
    have hlegal : opcodeField cmd ∈ legalOpcodes := mem_legalOpcodes_iff.mpr (not_or.mpr ho)
    exact step_rejected (decode_reservedBits hlegal hwf data) hpast
  case wellFormed =>
    intro hwf
    obtain ⟨i, hd, hi, _⟩ := decode_wellFormed hwf data
    exact ⟨i, hd, hi, step_of_decode_ok hd s⟩

/-- Settles O6: without SEND the two transactions decode alike, and the step reads the data word nowhere
else. -/
theorem onlySendReadsTheDataWord : Obligations.OnlySendReadsTheDataWord := by
  intro s cmd data data' ho
  rw [step_command, step_command, stepCommand, stepCommand, decode_data_irrelevant ho data data']

end Sys2Proof.Machine
end

section
/-! SUPPORT. The forms of the response words (R58): the result fields of each command, and that every response
is of STATUS OK with no other bit set, or of STATUS FAULT or HALTED with a cause. -/

namespace Sys2Proof.Machine

/-- The bits of the result fields of an opcode's commands (R58). -/
def resultFields (opc : BitVec 4) : Word64 :=
  match opc.toNat with
  | 0x3 | 0x4 => 0x1
  | 0x6 => 0xFF03
  | 0x7 => 0x1FFFF
  | 0x8 => 0xFF
  | 0x9 => 0x1FFFFFFF
  | 0xA => 0x0000FFFF0003FFFF
  | 0xB => 0x00001FFFFFFF0F01
  | 0xC => 0x030000000000FFFF
  | 0xD => 0xFFFFFFFF
  | _ => 0

/-- What a command with opcode `opc` can be answered in a block that has recorded `cause` (R58). -/
inductive Answers (opc : BitVec 4) (cause : BitVec 8) : Word64 → Prop
  | ok {r} (hlegal : opc ∈ legalOpcodes) (hfields : r &&& ~~~resultFields opc = 0)
      (hkind : opc = 0xC → r.extractLsb' 56 2 ≠ 3) : Answers opc cause r
  | fault (code : BitVec 8) : Answers opc cause (faultResponse code)
  | halted : Answers opc cause (haltedResponse cause)

/-! ### The result fields hold every 1 of a response of STATUS OK -/

theorem aliveResponse_fields (alive : Bool) : aliveResponse alive &&& ~~~0x1 = 0 := by
  cases alive <;> decide

theorem fregResponse_fields (nonempty accepted : Bool) (count : BitVec 8) :
    fregResponse nonempty accepted count &&& ~~~0xFF03 = 0 := by
  change 0#48 ++ count ++ 0#6 ++ BitVec.ofBool accepted ++ BitVec.ofBool nonempty &&&
    (0xFFFFFFFFFFFF#48 ++ 0#8 ++ 0x3F#6 ++ 0#1 ++ 0#1) = 0#48 ++ 0#8 ++ 0#6 ++ 0#1 ++ 0#1
  simp only [BitVec.and_append, BitVec.and_zero, BitVec.zero_and]

theorem fevalResponse_fields (matched : Bool) (value : GroupId) :
    fevalResponse matched value &&& ~~~0x1FFFF = 0 := by
  change 0#47 ++ BitVec.ofBool matched ++ value &&& (0x7FFFFFFFFFFF#47 ++ 0#1 ++ 0#16) = 0#47 ++ 0#1 ++ 0#16
  simp only [BitVec.and_append, BitVec.and_zero, BitVec.zero_and]

theorem fcntResponse_fields (count : BitVec 8) : fcntResponse count &&& ~~~0xFF = 0 := by
  change 0#56 ++ count &&& (0xFFFFFFFFFFFFFF#56 ++ 0#8) = 0#56 ++ 0#8
  simp only [BitVec.and_append, BitVec.and_zero, BitVec.zero_and]

theorem encResponse_fields (raw : ArbId) : encResponse raw &&& ~~~0x1FFFFFFF = 0 := by
  change 0#35 ++ raw &&& (0x7FFFFFFFF#35 ++ 0#29) = 0#35 ++ 0#29
  simp only [BitVec.and_append, BitVec.and_zero, BitVec.zero_and]

theorem decResponse_fields (gid : GroupId) (sid : BitVec 18) :
    decResponse gid sid &&& ~~~0x0000FFFF0003FFFF = 0 := by
  change 0#16 ++ gid ++ 0#14 ++ sid &&& (0xFFFF#16 ++ 0#16 ++ 0x3FFF#14 ++ 0#18) =
    0#16 ++ 0#16 ++ 0#14 ++ 0#18
  simp only [BitVec.and_append, BitVec.and_zero, BitVec.zero_and]

theorem sendResponse_fields (len : BitVec 4) (id : ArbId) :
    sendResponse len id &&& ~~~0x00001FFFFFFF0F01 = 0 := by
  change 0#19 ++ id ++ 0#4 ++ len ++ 0#7 ++ 1#1 &&& (0x7FFFF#19 ++ 0#29 ++ 0xF#4 ++ 0#4 ++ 0x7F#7 ++ 0#1) =
    0#19 ++ 0#29 ++ 0#4 ++ 0#4 ++ 0#7 ++ 0#1
  simp only [BitVec.and_append, BitVec.and_zero, BitVec.zero_and]

theorem recvResponse_fields (kind : BitVec 2) (value : GroupId) :
    recvResponse kind value &&& ~~~0x030000000000FFFF = 0 := by
  change 0#6 ++ kind ++ 0#40 ++ value &&& (0x3F#6 ++ 0#2 ++ 0xFFFFFFFFFF#40 ++ 0#16) =
    0#6 ++ 0#2 ++ 0#40 ++ 0#16
  simp only [BitVec.and_append, BitVec.and_zero, BitVec.zero_and]

theorem rdregResponse_fields (value : Word32) : rdregResponse value &&& ~~~0xFFFFFFFF = 0 := by
  change 0#32 ++ value &&& (0xFFFFFFFF#32 ++ 0#32) = 0#32 ++ 0#32
  simp only [BitVec.and_append, BitVec.and_zero, BitVec.zero_and]

/-! ### The fields that the statement reads -/

/-- KIND of RECV's response. -/
theorem recvResponse_kind (kind : BitVec 2) (value : GroupId) :
    (recvResponse kind value).extractLsb' 56 2 = kind := by
  rw [recvResponse, BitVec.extractLsb'_append_eq_of_le (by decide),
    BitVec.extractLsb'_append_eq_of_le (by decide)]
  exact BitVec.extractLsb'_append_eq_right

/-- A frame taken is reported as MATCH or NO_MATCH (R87). -/
theorem recvKind_ne (matched : Bool) : recvKind matched ≠ 3 := by
  cases matched <;> decide

/-- No result field lies in the STATUS bits, so a response with no other bit has STATUS OK. -/
theorem status_eq_zero_of_fields {r : Word64} {opc : BitVec 4} (h : r &&& ~~~resultFields opc = 0) :
    r.extractLsb' 60 4 = 0 := by
  have hmask : ∀ o, (~~~resultFields o).extractLsb' 60 4 = BitVec.allOnes 4 := by decide
  rw [← BitVec.and_allOnes (x := r.extractLsb' 60 4), ← hmask opc, ← BitVec.extractLsb'_and, h]
  rfl

/-- Bits 59:8 of a FAULT or HALTED response are 0. -/
theorem causeResponse_middle (status : BitVec 4) (cause : BitVec 8) :
    (status ++ 0#52 ++ cause).extractLsb' 8 52 = 0 := by
  rw [BitVec.extractLsb'_append_eq_of_le (by decide)]
  exact BitVec.extractLsb'_append_eq_right

/-- The recorded cause is the low byte of a halted block's response. -/
theorem haltedResponse_cause (cause : BitVec 8) : (haltedResponse cause).extractLsb' 0 8 = cause :=
  BitVec.extractLsb'_append_eq_right

/-! ### Every response has its form -/

/-- Every command's response is of one of the forms. -/
theorem Executes.answers {i : Instr} {s t : State} (h : Executes i s t) :
    ∃ r, t.responses = s.responses ++ [r] ∧ Answers (opcodeOf i) s.cause r := by
  have hok {r : Word64} (hfields : r &&& ~~~resultFields (opcodeOf i) = 0)
      (hkind : opcodeOf i = 0xC → r.extractLsb' 56 2 ≠ 3) : Answers (opcodeOf i) s.cause r :=
    .ok (opcodeOf_mem_legalOpcodes i) hfields hkind
  cases h with
  | halted => exact ⟨_, rfl, .halted⟩
  | decFault | recvFault | rdregFault => exact ⟨_, rfl, .fault _⟩
  | nop | lset | lrtg | fclr => exact ⟨_, rfl, hok BitVec.zero_and nofun⟩
  | lchk | lqry => exact ⟨_, rfl, hok (aliveResponse_fields _) nofun⟩
  | fregStored | fregDropped => exact ⟨_, rfl, hok (fregResponse_fields _ _ _) nofun⟩
  | feval => exact ⟨_, rfl, hok (fevalResponse_fields _ _) nofun⟩
  | fcnt => exact ⟨_, rfl, hok (fcntResponse_fields _) nofun⟩
  | enc => exact ⟨_, rfl, hok (encResponse_fields _) nofun⟩
  | dec => exact ⟨_, rfl, hok (decResponse_fields _ _) nofun⟩
  | send => exact ⟨_, rfl, hok (sendResponse_fields _ _) nofun⟩
  | rdreg => exact ⟨_, rfl, hok (rdregResponse_fields _) nofun⟩
  | recvNoFrame =>
    refine ⟨_, rfl, hok (recvResponse_fields _ _) fun _ => ?_⟩
    rw [recvResponse_kind]
    decide
  | recvFrame =>
    refine ⟨_, rfl, hok (recvResponse_fields _ _) fun _ => ?_⟩
    rw [recvResponse_kind]
    exact recvKind_ne _

/-- Every command word is answered one word, of one of the forms (R43, R58). -/
theorem step_answers (s : State) (cmd data : Word64) :
    ∃ t r, step (s.withNext (.command cmd data)) = .next t ∧ t.responses = s.responses ++ [r] ∧
      Answers (opcodeField cmd) s.cause r := by
  cases hd : decode cmd data with
  | ok i =>
    obtain ⟨t, ht, he⟩ := exec_executes i s.accepted
    obtain ⟨r, hr, hform⟩ := he.answers
    rw [(encodeCmd_of_decode hd).1] at hform
    exact ⟨t, r, (step_of_decode_ok hd s).trans ht, hr, hform⟩
  | error c =>
    by_cases hh : s.faulted = true ∧ runsWhileHalted (opcodeField cmd) = false
    · exact ⟨_, _, step_halted hh.1 hh.2 data, rfl, .halted⟩
    · exact ⟨_, _, step_rejected hd hh, rfl, .fault _⟩

/-- Settles O44: of each form of response, STATUS and the bits that follow from it. -/
theorem responseWordsKeepTheirForm : Obligations.ResponseWordsKeepTheirForm := by
  intro s cmd data
  obtain ⟨t, r, ht, hr, hform⟩ := step_answers s cmd data
  refine ⟨t, r, ht, hr, ?_⟩
  cases hform with
  | ok hlegal hfields hkind =>
    have hstatus := status_eq_zero_of_fields hfields
    have hrow : (opcodeField cmd, resultFields (opcodeField cmd)) ∈
        legalOpcodes.map fun o => (o, resultFields o) := List.mem_map_of_mem hlegal
    exact ⟨.inl hstatus, fun h => absurd hstatus h, by simp [hstatus], fun _ => ⟨_, hrow, hfields, hkind⟩⟩
  | fault code =>
    have hstatus := faultResponse_status code
    exact ⟨.inr (.inl hstatus), fun _ => causeResponse_middle _ _, by simp [hstatus], by simp [hstatus]⟩
  | halted =>
    have hstatus := haltedResponse_status s.cause
    exact ⟨.inr (.inr hstatus), fun _ => causeResponse_middle _ _, fun _ => haltedResponse_cause _,
      by simp [hstatus]⟩

end Sys2Proof.Machine
end

section
/-! SUPPORT. What the lines of the assembler stand for (R61, R62, R64), with the round trip of encoder and
decoder. -/

namespace Sys2Proof.Machine

/-! ### Lines of one command -/

/-- A line whose operands fit assembles to its agents' steps (R61). -/
theorem assembleLine_fits {l : SourceLine} (h : operandsFit l = true) :
    assembleLine l = some (lineEvents l) :=
  if_pos h

/-- A line with an operand that does not fit is refused (R61). -/
theorem assembleLine_refused {l : SourceLine} (h : ¬operandsFit l = true) : assembleLine l = none :=
  if_neg h

/-- A line of one command assembles to a transaction that decodes to the command, or is refused (R61). -/
theorem assembleLine_command {l : SourceLine} {i : Instr} {p : Prop} [Decidable p]
    (hevents : lineEvents l = [commandEvent i]) (hfits : operandsFit l = true ↔ p) :
    if p then ∃ c d, assembleLine l = some [.command c d] ∧ decode c d = .ok i
    else assembleLine l = none := by
  split
  · next h =>
    refine ⟨_, _, ?_, decodeOfEncodeIsTheInstruction i⟩
    rw [assembleLine_fits (hfits.mpr h), hevents, commandEvent]
  · next h => exact assembleLine_refused (mt hfits.mp h)

/-- A payload list fits when LEN can count it and its entries are bytes (R51, R61). -/
theorem bytesFit_iff (bytes : List Nat) :
    bytesFit bytes = true ↔ bytes.length ≤ 255 ∧ ∀ b ∈ bytes, b < 2 ^ 8 := by
  simp [bytesFit]

/-! ### The payload of a line -/

/-- Byte k of a data word packed from a buffer is the buffer's byte k (R34, R61). -/
theorem packWord64_byte (p : Payload) {k : Nat} (hk : k < 8) :
    (packWord64 p).extractLsb' (8 * k) 8 = payloadByte p k := by
  rw [packWord64]
  rcases Nat.lt_or_ge k 4 with hlow | hhigh
  · rw [BitVec.extractLsb'_append_eq_of_add_le (by omega), packWord32_byte p 0 hlow, Nat.zero_add]
  · have hstart : 8 * k - 32 = 8 * (k - 4) := by omega
    rw [BitVec.extractLsb'_append_eq_of_le (by omega), hstart, packWord32_byte p 4 (by omega),
      Nat.add_sub_cancel' hhigh]

/-- A line's payload buffer holds its first eight bytes, and zeros beyond them (R61, R64). -/
theorem payloadByte_listPayload (bytes : List Nat) {k : Nat} (hk : k < 8) :
    payloadByte (listPayload bytes) k = BitVec.ofNat 8 (bytes.getD k 0) :=
  payloadByte_payloadOf _ hk

/-! ### The statements -/

/-- Settles O53: each line stands for its command, which decodes from its encoding; SEND's data word is packed
from the payload list. -/
theorem assemblerWritesTheOperands : Obligations.AssemblerWritesTheOperands := by
  refine ⟨fun dur => assembleLine_command rfl ?_, fun mask pat => assembleLine_command rfl ?_,
    fun gid => assembleLine_command rfl ?_, fun gid sid => assembleLine_command rfl ?_,
    fun ext raw => assembleLine_command rfl ?_, fun gid bytes => ?send,
    fun regno => assembleLine_command rfl ?_⟩
  case send =>
    have hfits : operandsFit (.send gid bytes) = true ↔
        gid < 2 ^ 16 ∧ bytes.length ≤ 255 ∧ ∀ b ∈ bytes, b < 2 ^ 8 := by
      rw [operandsFit, Bool.and_eq_true, decide_eq_true_iff, bytesFit_iff]
    split
    · next h =>
      refine ⟨_, _, assembleLine_fits (hfits.mpr h), decodeOfEncodeIsTheInstruction _, fun k hk => ?_⟩
      exact (packWord64_byte _ hk).trans (payloadByte_listPayload bytes hk)
    · next h => exact assembleLine_refused (mt hfits.mp h)
  all_goals simp [operandsFit]

/-- Settles O54: each pseudo-instruction stands for the steps of its expansion and is refused with it. -/
theorem pseudoInstructionsExpand : Obligations.PseudoInstructionsExpand := by
  refine ⟨rfl, fun mask pat => ?fonly, fun gid => ?fexact⟩
  case fonly =>
    have hsame : operandsFit (.fonly mask pat) = operandsFit (.freg mask pat) := rfl
    rw [assembleLine_fits (l := .fclr) rfl]
    by_cases h : operandsFit (.freg mask pat) = true
    · rw [assembleLine_fits (hsame.trans h), assembleLine_fits h]
      rfl
    · rw [assembleLine_refused (hsame ▸ h), assembleLine_refused h]
      rfl
  case fexact =>
    have hsame : operandsFit (.fexact gid) = operandsFit (.freg 0xFFFF gid) := by simp [operandsFit]
    rw [assembleLine, assembleLine, hsame]
    rfl

/-- Settles O55: each directive stands for its agent's steps, and a delivery carries the payload list's
bytes. -/
theorem directivesAreStepsOfTheOtherAgents : Obligations.DirectivesAreStepsOfTheOtherAgents := by
  refine ⟨fun id => ?reset, fun n => assembleLine_fits rfl, fun ext id bytes => ?rx⟩
  case reset => simp [assembleLine, operandsFit, lineEvents]
  case rx =>
    have hfits : operandsFit (.rxDirective ext id bytes) = true ↔
        id < 2 ^ 29 ∧ bytes.length ≤ 255 ∧ ∀ b ∈ bytes, b < 2 ^ 8 := by
      rw [operandsFit, Bool.and_eq_true, decide_eq_true_iff, bytesFit_iff]
    split
    · next h =>
      refine ⟨_, assembleLine_fits (hfits.mpr h), fun k => ?_⟩
      exact (payloadByte_eq_getElem _ k.isLt).symm.trans (payloadByte_listPayload bytes k.isLt)
    · next h => exact assembleLine_refused (mt hfits.mp h)

end Sys2Proof.Machine
end

section
/-! SUPPORT. The countdown against the deadline form (R70): which steps arm it, with what duration, and that
every step keeps `LV_REM == max(0, deadline - now)`. -/

namespace Sys2Proof.Machine

/-! ### What the next step arms the countdown with -/

/-- A word that does not decode arms nothing. -/
theorem armingNext_undecoded {cmd data : Word64} {c : FaultCause} (hd : decode cmd data = .error c)
    (s : State) : (s.withNext (.command cmd data)).armingNext = none := by
  simp [State.armingNext, hd]

/-- A halted block arms nothing (R96). -/
theorem armingNext_halted {s : State} (hf : s.faulted = true) (cmd data : Word64) :
    (s.withNext (.command cmd data)).armingNext = none := by
  simp [State.armingNext, hf]

/-- LSET arms with its operand (R66). -/
theorem armingNext_lset {s : State} (hf : s.faulted = false) {cmd data : Word64} {dur : Word32}
    (hd : decode cmd data = .ok (.lset dur)) :
    (s.withNext (.command cmd data)).armingNext = some dur := by
  simp [State.armingNext, hf, hd]

/-- LRTG arms with `LV_DUR` (R67). -/
theorem armingNext_lrtg {s : State} (hf : s.faulted = false) {cmd data : Word64}
    (hd : decode cmd data = .ok .lrtg) :
    (s.withNext (.command cmd data)).armingNext = some s.lvDur := by
  simp [State.armingNext, hf, hd]

/-- RECV arms with `LV_DUR` when the frame it finds can be decoded (R79, R87). -/
theorem armingNext_recv {s : State} (hf : s.faulted = false) {cmd data : Word64}
    (hd : decode cmd data = .ok .recv) :
    (s.withNext (.command cmd data)).armingNext =
      if s.rxPend && (codecDecode s.rxExt s.rxId).isSome then some s.lvDur else none := by
  have hframe : (codecDecode s.rxExt s.rxId).isSome = (s.rxExt || decide (s.rxId.toNat < 0x800)) := by
    obtain ⟨he, hc⟩ | ⟨_, hlt, hc⟩ | ⟨he, hge, hc⟩ := codecDecode_cases s.rxExt s.rxId <;> rw [hc]
    · simp [he]
    · simp [hlt]
    · simp [he, hge]
  rw [hframe]
  simp [State.armingNext, hf, hd]

/-- Every other command arms nothing (R70). -/
theorem armingNext_other {i : Instr} {cmd data : Word64} (hd : decode cmd data = .ok i)
    (hlset : ∀ dur, i ≠ .lset dur) (hlrtg : i ≠ .lrtg) (hrecv : i ≠ .recv) (s : State) :
    (s.withNext (.command cmd data)).armingNext = none := by
  cases i with
  | lset dur => exact absurd rfl (hlset dur)
  | lrtg => exact absurd rfl hlrtg
  | recv => exact absurd rfl hrecv
  | _ => simp [State.armingNext, hd]

/-- A command leaves the countdown at the duration it arms with, and where it was if it arms nothing (R17). -/
theorem Executes.lvRem_eq {i : Instr} {s t : State} (h : Executes i s t) {cmd data : Word64}
    (hd : decode cmd data = .ok i) :
    t.lvRem = (s.withNext (.command cmd data)).armingNext.getD s.lvRem := by
  cases h with
  | halted hf => rw [armingNext_halted hf]; rfl
  | lset hf => rw [armingNext_lset hf hd]; rfl
  | lrtg hf => rw [armingNext_lrtg hf hd]; rfl
  | recvNoFrame hf hp => rw [armingNext_recv hf hd, hp]; rfl
  | recvFrame hf hp hc => rw [armingNext_recv hf hd, hp, hc]; rfl
  | recvFault hf hp hc => rw [armingNext_recv hf hd, hp, hc]; rfl
  | _ => rw [armingNext_other hd nofun nofun nofun]; rfl

/-! ### The deadline form after each agent's step -/

/-- With nothing pending the deadline form stays. -/
theorem Deadline.after_idle {s : State} (hp : s.pending = []) (d : Deadline) : d.after s = d := by
  simp [Deadline.after, State.armingNext, hp]

/-- A command sets the deadline from `now` by what it arms with. -/
theorem Deadline.after_command (d : Deadline) (s : State) (cmd data : Word64) :
    d.after (s.withNext (.command cmd data)) =
      (s.withNext (.command cmd data)).armingNext.elim d
        fun dur => { d with deadline := d.now + dur.toNat } := by
  cases ha : (s.withNext (.command cmd data)).armingNext <;> simp [Deadline.after, ha]

/-- A command that leaves the countdown at the duration it arms with keeps the deadline form. -/
theorem Deadline.Tracks.after_command {d : Deadline} {s t : State} (hs : d.Tracks s) {cmd data : Word64}
    (ht : t.lvRem = (s.withNext (.command cmd data)).armingNext.getD s.lvRem) :
    (d.after (s.withNext (.command cmd data))).Tracks t := by
  rw [Deadline.after_command, Deadline.Tracks, ht]
  cases (s.withNext (.command cmd data)).armingNext with
  | none => exact hs
  | some dur => exact (Nat.add_sub_cancel_left _ _).symm

/-- A tick brings `now` one closer to the deadline, and both differences stay at 0 from there on (R65). -/
theorem Deadline.Tracks.after_tick {d : Deadline} {s : State} (hs : d.Tracks s) :
    (d.after (s.withNext .tick)).Tracks (tick s) :=
  calc (tick s).lvRem.toNat
    _ = s.lvRem.toNat - 1 := tick_lvRem_toNat s
    _ = d.deadline - d.now - 1 := by rw [hs]
    _ = d.deadline - (d.now + 1) := Nat.sub_sub _ _ _

/-- Reset starts both forms again at the reset timeout (R107). -/
theorem Deadline.tracks_after_reset (d : Deadline) (s : State) (id : BitVec 16) :
    (d.after (s.withNext (.reset id))).Tracks (resetBlock id s) := rfl

/-- Every step keeps the deadline form. -/
theorem Steps.tracks {s t : State} (h : Steps s t) {d : Deadline} (hs : d.Tracks s) :
    (d.after s).Tracks t := by
  cases h with
  | idle hp => rwa [Deadline.after_idle hp]
  | @command s _ _ _ _ hd he => exact Deadline.Tracks.after_command (s := s) hs (he.lvRem_eq hd)
  | @halted s cmd data _ hd hf =>
    refine Deadline.Tracks.after_command (s := s) hs ?_
    rw [armingNext_halted hf]
    rfl
  | @rejected s _ _ _ hd =>
    refine Deadline.Tracks.after_command (s := s) hs ?_
    rw [armingNext_undecoded hd]
    rfl
  | tick => exact hs.after_tick
  | deliver => exact hs
  | reset => exact Deadline.tracks_after_reset d _ _

/-- Settles O16: an arming moves the deadline with the countdown, a tick brings both one closer, and no other
step touches either. -/
theorem countdownTracksTheDeadline : Obligations.CountdownTracksTheDeadline := by
  refine ⟨fun d s t hs h => (steps_of_step h).tracks hs, fun d s t id h => ?_⟩
  cases h
  exact Deadline.tracks_after_reset d s id

end Sys2Proof.Machine
end

section
/-! SUPPORT. The commands of the liveness timer and the check's result (R65 to R70), and the rule that ties a
command's effect to the words of its format (R56, R59). -/

namespace Sys2Proof.Machine

/-! ### The words of a format -/

/-- The rule of a format follows from its reserved bits and from what the decoder reads of a word with its
opcode. -/
theorem formatRule_of_decode {opc : BitVec 4} {reserved : Word64 → Bool} {instr : Word64 → Word64 → Instr}
    {f : Format} (hreserved : ∀ c, reserved c = false ↔ c &&& reservedMask f = 0)
    (hdecode : ∀ c data, opcodeField c = opc → decode c data = ifReservedClear f c (instr c data)) :
    FormatRule opc reserved instr := by
  rintro s cmd data rfl
  have hd := hdecode cmd data rfl
  have hhalts := runsWhileHalted_eq_false_iff (opcodeField cmd)
  split
  · next hh =>
    obtain ⟨hf, ho⟩ := hh
    exact step_halted hf (hhalts.mpr ho) data
  · next hpast =>
    obtain ⟨hclear, hok⟩ | ⟨hset, herr⟩ := ifReservedClear_cases f cmd (instr cmd data)
    · rw [(hreserved cmd).mpr hclear]
      exact step_of_decode_ok (hd.trans hok) s
    · rw [Bool.eq_true_of_not_eq_false (mt (hreserved cmd).mp hset)]
      exact step_rejected (hd.trans herr) fun ⟨hf, ho⟩ => hpast ⟨hf, hhalts.mp ho⟩

/-- A command without operands reserves `CMD[59:0]` (R45). -/
theorem formatRule_N {opc : BitVec 4} {i : Instr}
    (hdecode : ∀ c data, opcodeField c = opc → decode c data = ifReservedClear .N c i) :
    FormatRule opc (fun c => c.extractLsb' 0 60 != 0) fun _ _ => i :=
  formatRule_of_decode (fun c => bne_eq_false_iff_eq.trans (reserved_N c).symm) hdecode

/-! ### What each command does in a block that is not faulted -/

/-- LSET stores the timeout, arms for it and answers 0 (R66). -/
theorem exec_lset_running {s : State} (hf : s.faulted = false) (dur : Word32) :
    exec (.lset dur) s = .next ((arm dur { s with lvDur := dur }).answered okResponse) :=
  unlessHalted_running hf _ _

/-- LRTG arms for the stored timeout and answers 0 (R67). -/
theorem exec_lrtg_running {s : State} (hf : s.faulted = false) :
    exec .lrtg s = .next ((arm s.lvDur s).answered okResponse) :=
  unlessHalted_running hf _ _

/-- LCHK stores the check's result and reports it (R68). -/
theorem exec_lchk_running {s : State} (hf : s.faulted = false) :
    exec .lchk s = .next ((applyCheck s).answered (aliveResponse (aliveAfterCheck s))) :=
  unlessHalted_running hf _ _

/-- LQRY reports the stored state and writes nothing (R69). -/
theorem exec_lqry_running {s : State} (hf : s.faulted = false) :
    exec .lqry s = .next (s.answered (aliveResponse s.lvAlive)) :=
  unlessHalted_running hf _ _

/-! ### The check -/

/-- Bit 0 of LCHK's and LQRY's response is the state reported (R58). -/
theorem aliveResponse_eq (alive : Bool) : aliveResponse alive = if alive = true then 1#64 else 0#64 := by
  cases alive <;> rfl

/-- The check makes the link DEAD when the countdown is at 0, and else leaves it (R68). -/
theorem aliveAfterCheck_eq (s : State) :
    aliveAfterCheck s = if s.lvRem = 0 then false else s.lvAlive := by
  simp [aliveAfterCheck, expired]

/-- The check finds the link ALIVE when it was and the countdown is not at 0 (R68). -/
theorem aliveAfterCheck_iff (s : State) :
    aliveAfterCheck s = true ↔ s.lvRem ≠ 0 ∧ s.lvAlive = true := by
  rw [aliveAfterCheck_eq]
  split <;> simp_all

/-- Under R19 a countdown that is not at 0 means that the link was ALIVE. -/
theorem State.LivenessOk.aliveAfterCheck_iff {s : State} (hs : s.LivenessOk) :
    aliveAfterCheck s = true ↔ s.lvRem ≠ 0 := by
  rw [Machine.aliveAfterCheck_iff, and_iff_left_iff_imp]
  exact fun hrem => Bool.eq_true_of_not_eq_false (mt hs hrem)

/-- Under R19 the check leaves the stored state current (R70, conflict C2). -/
theorem State.LivenessOk.livenessCurrent_applyCheck {s : State} (hs : s.LivenessOk) :
    (applyCheck s).LivenessCurrent :=
  hs.aliveAfterCheck_iff

/-! ### Ticks -/

/-- A tick writes the saturating decrement to the countdown and nothing else (R65). -/
theorem tick_eq (s : State) : tick s = { s with lvRem := BitVec.ofNat 32 (s.lvRem.toNat - 1) } := by
  rw [← tick_lvRem_toNat, BitVec.ofNat_toNat, BitVec.setWidth_eq]
  rfl

/-- Many ticks count down by their number, saturating, and write nothing else. -/
theorem iterate_tick_eq (n : Nat) (s : State) :
    tick^[n] s = { s with lvRem := BitVec.ofNat 32 (s.lvRem.toNat - n) } := by
  induction n with
  | zero => simp
  | succ n ih =>
    have hlt : s.lvRem.toNat - n < 2 ^ 32 := (Nat.sub_le _ _).trans_lt s.lvRem.isLt
    rw [Function.iterate_succ_apply', ih, tick_eq, BitVec.toNat_ofNat, Nat.mod_eq_of_lt hlt, Nat.sub_sub]

/-- An armed link is found ALIVE by a check `n` ticks later when more than `n` ticks were left (R70). -/
theorem aliveAfterCheck_iterate_tick {s : State} (halive : s.lvAlive = true) (n : Nat) :
    aliveAfterCheck (tick^[n] s) = true ↔ n < s.lvRem.toNat := by
  have hrem := s.lvRem.isLt
  rw [aliveAfterCheck_iff, iterate_tick_eq, and_iff_left halive]
  bv_omega

/-- LCHK `n` ticks after an arming reports and stores whether more than `n` ticks were left (R68, R70). -/
theorem exec_lchk_after_ticks {s : State} (hf : s.faulted = false) (halive : s.lvAlive = true) (n : Nat) :
    ∃ t, exec .lchk (tick^[n] s) = .next t ∧
      t.responses = s.responses ++ [if n < s.lvRem.toNat then 1#64 else 0#64] ∧
      (t.lvAlive = true ↔ n < s.lvRem.toNat) := by
  have hcheck := aliveAfterCheck_iterate_tick halive n
  obtain ⟨hfaulted, hresponses⟩ :
      (tick^[n] s).faulted = s.faulted ∧ (tick^[n] s).responses = s.responses := by
    rw [iterate_tick_eq]
    exact ⟨rfl, rfl⟩
  refine ⟨_, exec_lchk_running (hfaulted.trans hf), ?_, hcheck⟩
  simp only [State.answered, applyCheck_fields, hresponses, aliveResponse_eq, hcheck]

/-- After a command that arms for `dur` ticks, a check `n` ticks later reports ALIVE exactly when `n < dur`
(R70). -/
theorem check_after_arming {i : Instr} {s u : State} {dur : Word32}
    (harm : exec i s = .next ((arm dur u).answered okResponse)) (hf : u.faulted = false)
    (hu : u.responses = s.responses) (n : Nat) :
    ∃ armed t, exec i s = .next armed ∧ exec .lchk (tick^[n] armed) = .next t ∧
      t.responses = s.responses ++ [0#64, if n < dur.toNat then 1#64 else 0#64] ∧
      (t.lvAlive = true ↔ n < dur.toNat) := by
  obtain ⟨t, ht, hresp, halive⟩ := exec_lchk_after_ticks (s := (arm dur u).answered okResponse) hf rfl n
  refine ⟨_, t, harm, ht, hresp.trans ?_, halive⟩
  rw [← hu]
  exact List.append_assoc _ _ _

/-! ### The statements -/

/-- Settles O15: LSET and LRTG both arm, LSET for its operand and LRTG for `LV_DUR`. -/
theorem checkReportsAliveWithinTheWindow : Obligations.CheckReportsAliveWithinTheWindow := by
  refine ⟨fun s dur n hf => ?lset, fun s n hf => ?lrtg⟩
  case lset => exact check_after_arming (u := { s with lvDur := dur }) (exec_lset_running hf dur) hf rfl n
  case lrtg => exact check_after_arming (exec_lrtg_running hf) hf rfl n

/-- Settles O17: LCHK and a RECV without a frame check, and a RECV that takes a frame retriggers. -/
theorem livenessIsCurrentAfterACheck : Obligations.LivenessIsCurrentAfterACheck := by
  intro s t hs hf
  have hrunning : s.faulted ≠ true := by simp [hf]
  refine ⟨fun h => ?lchk, fun h hp => ?noFrame, fun h hp ht => ?frame⟩
  case lchk =>
    cases executes_of_exec h with
    | halted hhalted => exact absurd hhalted hrunning
    | lchk => exact hs.livenessCurrent_applyCheck
  case noFrame =>
    cases executes_of_exec h with
    | halted hhalted => exact absurd hhalted hrunning
    | recvNoFrame => exact hs.livenessCurrent_applyCheck
    | recvFrame _ hpend | recvFault _ hpend => cases hp.symm.trans hpend
  case frame =>
    cases executes_of_exec h with
    | halted hhalted => exact absurd hhalted hrunning
    | recvNoFrame _ hpend => cases hpend.symm.trans hp
    | recvFrame => exact ⟨rfl, rfl⟩
    | recvFault => cases ht

/-- Settles O10: the step of a pending tick is the tick. -/
theorem tickCountsDownAndSaturates : Obligations.TickCountsDownAndSaturates :=
  fun s => (step_tick s).trans (congrArg _ (tick_eq s))

/-- Settles O11: the effect past the halted check, HALTED, and format T. -/
theorem lsetSetsTheTimeoutAndRearms : Obligations.LsetSetsTheTimeoutAndRearms :=
  ⟨fun _ dur hf => exec_lset_running hf dur, fun _ _ hf => exec_halted hf rfl,
    formatRule_of_decode (fun c => bne_eq_false_iff_eq.trans (reserved_T c).symm)
      fun _ data ho => decode_of_opcode ho data⟩

/-- Settles O12: the effect past the halted check, HALTED, and format N. -/
theorem lrtgRetriggers : Obligations.LrtgRetriggers :=
  ⟨fun _ hf => exec_lrtg_running hf, fun _ hf => exec_halted hf rfl,
    formatRule_N fun _ data ho => decode_of_opcode ho data⟩

/-- Settles O13: the check's result by the countdown and the stored state, and by the countdown alone under
R19; HALTED, and format N. -/
theorem lchkReportsAndStoresTheCheck : Obligations.LchkReportsAndStoresTheCheck := by
  refine ⟨fun s hf => ?effect, fun _ hf => exec_halted hf rfl, fun s hs hf => ?underR19,
    formatRule_N fun _ data ho => decode_of_opcode ho data⟩
  case effect =>
    rw [exec_lchk_running hf, aliveResponse_eq]
    simp only [aliveAfterCheck_iff, ← aliveAfterCheck_eq]
    rfl
  case underR19 =>
    have hcheck : aliveAfterCheck s = decide (s.lvRem ≠ 0) :=
      Bool.eq_iff_iff.mpr (hs.aliveAfterCheck_iff.trans decide_eq_true_iff.symm)
    rw [exec_lchk_running hf, aliveResponse_eq, ← hcheck]
    simp only [hs.aliveAfterCheck_iff]
    rfl

/-- Settles O14: the effect past the halted check, HALTED, and format N. -/
theorem lqryReportsWithoutChecking : Obligations.LqryReportsWithoutChecking := by
  refine ⟨fun s hf => ?_, fun _ hf => exec_halted hf rfl,
    formatRule_N fun _ data ho => decode_of_opcode ho data⟩
  rw [exec_lqry_running hf, aliveResponse_eq]
  rfl

end Sys2Proof.Machine
end

section
/-! SUPPORT. The match engine (R72, R77): the scan by slot numbers, and what a match says of its entry. -/

namespace Sys2Proof.Machine

/-! ### The valid entries -/

/-- Valid entry `i` is slot `i`, for `i` below `FT_COUNT` (R21). -/
theorem validEntries_getElem?_eq_some_iff {s : State} {i : Nat} {e : FilterEntry} :
    (validEntries s)[i]? = some e ↔ i < s.ftCount.toNat ∧ s.ftSlots[i]? = some e := by
  rw [validEntries, List.getElem?_take, Option.ite_none_right_eq_some]

/-- The valid entries are those in the slots below `FT_COUNT` (R21). -/
theorem mem_validEntries_iff {s : State} {e : FilterEntry} :
    e ∈ validEntries s ↔ ∃ i, i < s.ftCount.toNat ∧ s.ftSlots[i]? = some e := by
  simp only [List.mem_iff_getElem?, validEntries_getElem?_eq_some_iff]

/-! ### Matching one entry -/

/-- The pattern of an entry that matches has no bit outside the entry's mask (R77). -/
theorem pat_within_mask {g : GroupId} {e : FilterEntry} (h : g &&& e.mask = e.pat) :
    e.pat &&& ~~~e.mask = 0 := by
  rw [← h, BitVec.and_assoc, BitVec.and_not_self]
  exact BitVec.and_zero

/-- An entry with mask 0xFFFF matches exactly its pattern (R77). -/
theorem matches_fullMask_iff {g : GroupId} {e : FilterEntry} (h : e.mask = 0xFFFF) :
    g &&& e.mask = e.pat ↔ e.pat = g := by
  rw [h, show (0xFFFF : BitVec 16) = BitVec.allOnes 16 from rfl, BitVec.and_allOnes, eq_comm]

/-! ### The scan and `filter_eval` -/

/-- The scan answers the pattern of an entry that matches when no entry before it does (R72). -/
theorem firstMatch_of_first {g : GroupId} {l : List FilterEntry} {i : Nat} {e : FilterEntry}
    (he : l[i]? = some e) (hmatch : entryMatches g e = true)
    (hfirst : ∀ j e', j < i → l[j]? = some e' → entryMatches g e' = false) :
    firstMatch g l = (true, e.pat) := by
  induction l generalizing i with
  | nil => simp at he
  | cons a rest ih =>
    cases i with
    | zero =>
      obtain rfl : a = e := Option.some.inj he
      exact if_pos hmatch
    | succ i =>
      have ha : entryMatches g a = false := hfirst 0 a i.succ_pos rfl
      rw [firstMatch, ha]
      exact ih he fun j e' hj => hfirst (j + 1) e' (Nat.succ_lt_succ hj)

/-- An empty table passes every group-id (R72). -/
theorem filterEval_empty {s : State} (h : s.ftCount = 0) (g : GroupId) : filterEval s g = (true, g) :=
  if_pos h

/-- A table that is not empty is scanned (R72). -/
theorem filterEval_nonempty {s : State} (h : s.ftCount ≠ 0) (g : GroupId) :
    filterEval s g = firstMatch g (validEntries s) :=
  if_neg h

/-- A table that is not empty answers the pattern of a valid entry that matches, or no match when none does
(R72). -/
theorem filterEval_nonempty_cases {s : State} (h : s.ftCount ≠ 0) (g : GroupId) :
    (∃ e ∈ validEntries s, g &&& e.mask = e.pat ∧ filterEval s g = (true, e.pat)) ∨
    ((∀ e ∈ validEntries s, g &&& e.mask ≠ e.pat) ∧ filterEval s g = (false, 0)) := by
  rw [filterEval_nonempty h]
  obtain ⟨e, he, hmatch, hv⟩ | ⟨hnone, hv⟩ := firstMatch_cases g (validEntries s)
  · exact .inl ⟨e, he, (entryMatches_iff g e).mp hmatch, hv⟩
  · exact .inr ⟨fun e he => mt (entryMatches_iff g e).mpr (Bool.eq_false_iff.mp (hnone e he)), hv⟩

/-- A table that is not empty reports a match exactly when a valid entry matches (R72). -/
theorem filterEval_matched_iff {s : State} (h : s.ftCount ≠ 0) (g : GroupId) :
    (filterEval s g).1 = true ↔ ∃ e ∈ validEntries s, g &&& e.mask = e.pat := by
  obtain ⟨e, he, hmatch, hv⟩ | ⟨hnone, hv⟩ := filterEval_nonempty_cases h g
  · simpa only [hv, true_iff] using ⟨e, he, hmatch⟩
  · simpa [hv] using hnone

/-- The result depends on the group-id, `FT_COUNT` and the valid entries alone (R77). -/
theorem filterEval_congr {s t : State} (hcount : s.ftCount = t.ftCount)
    (hvalid : validEntries s = validEntries t) (g : GroupId) : filterEval s g = filterEval t g := by
  rw [filterEval, filterEval, hcount, hvalid]

/-- Settles O19: the scan of the valid entries, which are the slots below `FT_COUNT`. -/
theorem filterEvalIsFirstMatch : Obligations.FilterEvalIsFirstMatch := by
  intro s g
  refine ⟨fun h => filterEval_empty h g, fun i e hi he hmatch hfirst => ?first, fun h hnone => ?none⟩
  case first =>
    have hcount : s.ftCount ≠ 0 := by
      intro h
      simp [h] at hi
    rw [filterEval_nonempty hcount]
    refine firstMatch_of_first (validEntries_getElem?_eq_some_iff.mpr ⟨hi, he⟩)
      ((entryMatches_iff g e).mpr hmatch) fun j e' hj he' => ?_
    obtain ⟨_, hslot⟩ := validEntries_getElem?_eq_some_iff.mp he'
    exact Bool.eq_false_iff.mpr (mt (entryMatches_iff g e').mp (hfirst j e' hj hslot))
  case none =>
    obtain ⟨e, he, hmatch, _⟩ | ⟨_, hv⟩ := filterEval_nonempty_cases h g
    · obtain ⟨i, hi, hslot⟩ := mem_validEntries_iff.mp he
      exact absurd hmatch (hnone i e hi hslot)
    · exact hv

end Sys2Proof.Machine
end

section
/-! SUPPORT. The commands of the filter table (R73 to R76): the effect of each in a block that is not faulted,
and the fields of its response. -/

namespace Sys2Proof.Machine

/-! ### What each command does in a block that is not faulted -/

/-- FCLR writes 0 to the count and answers 0 (R73). -/
theorem exec_fclr_running {s : State} (hf : s.faulted = false) :
    exec .fclr s = .next (({ s with ftCount := 0 } : State).answered okResponse) :=
  unlessHalted_running hf _ _

/-- FREG below the capacity stores the entry and counts it (R74). -/
theorem exec_freg_stored {s : State} (hf : s.faulted = false)
    (hroom : s.ftCount.toNat < s.filterCapacity.toNat) (mask pat : BitVec 16) :
    exec (.freg mask pat) s = .next ((storeFilter ⟨mask, pat⟩ s).answered
      (fregResponse (nonempty (s.ftCount + 1)) true (s.ftCount + 1))) :=
  (unlessHalted_running hf _ _).trans (if_pos (decide_eq_true hroom))

/-- FREG at the capacity writes nothing (R74). -/
theorem exec_freg_dropped {s : State} (hf : s.faulted = false)
    (hfull : s.filterCapacity.toNat ≤ s.ftCount.toNat) (mask pat : BitVec 16) :
    exec (.freg mask pat) s =
      .next (s.answered (fregResponse (nonempty s.ftCount) false s.ftCount)) :=
  (unlessHalted_running hf _ _).trans (if_neg (by simpa [tableHasRoom] using hfull))

/-- FEVAL reports the evaluation and writes nothing (R75). -/
theorem exec_feval_running {s : State} (hf : s.faulted = false) (gid : GroupId) :
    exec (.feval gid) s =
      .next (s.answered (fevalResponse (filterEval s gid).1 (filterEval s gid).2)) :=
  unlessHalted_running hf _ _

/-- FCNT reports the count and writes nothing (R76). -/
theorem exec_fcnt_running {s : State} (hf : s.faulted = false) :
    exec .fcnt s = .next (s.answered (fcntResponse s.ftCount)) :=
  unlessHalted_running hf _ _

/-! ### The fields of the responses -/

/-- A 1-bit result field, by the flag it holds. -/
theorem ofBool_eq_ite (b : Bool) : BitVec.ofBool b = if b = true then 1#1 else 0#1 := by
  cases b <;> rfl

/-- NONEMPTY is 1 exactly when the count is not 0 (R74). -/
theorem nonempty_iff (count : BitVec 8) : nonempty count = true ↔ count ≠ 0 := bne_iff_ne

/-- NONEMPTY as the bit of the response, by the count (R74). -/
theorem ofBool_nonempty (count : BitVec 8) :
    BitVec.ofBool (nonempty count) = if count = 0 then 0#1 else 1#1 := by
  simp only [ofBool_eq_ite, nonempty_iff, ite_not]

/-- Bit 0 of FREG's response is NONEMPTY (R58). -/
theorem fregResponse_getLsbD_zero (nonempty accepted : Bool) (count : BitVec 8) :
    (fregResponse nonempty accepted count).getLsbD 0 = nonempty := by
  rw [fregResponse, BitVec.getLsbD_append]
  cases nonempty <;> rfl

/-- The count after a stored entry is not 0: below a capacity of at most 255 it does not wrap (R74). -/
theorem nonempty_after_store {s : State} (hroom : s.ftCount.toNat < s.filterCapacity.toNat) :
    nonempty (s.ftCount + 1) = true := by
  rw [nonempty_iff]
  have hcap := s.filterCapacity.isLt
  bv_omega

/-- A full table is not empty: its capacity is at least 1 (R74). -/
theorem nonempty_of_full {s : State} (hcap : s.filterCapacity ≠ 0)
    (hfull : s.filterCapacity.toNat ≤ s.ftCount.toNat) : nonempty s.ftCount = true := by
  rw [nonempty_iff]
  bv_omega

/-- COUNT of FCNT is the response's low byte (R58). -/
theorem fcntResponse_eq (count : BitVec 8) : fcntResponse count = count.setWidth 64 :=
  (BitVec.setWidth_eq_append (by decide)).symm

/-! ### The statements -/

/-- Settles O20: the laws of the evaluation, and for the fifth that FREG at the capacity writes nothing. -/
theorem matchEngineLaws : Obligations.MatchEngineLaws := by
  refine ⟨fun s g h => filterEval_empty h g, fun s g v h hv => ?value, fun g e hout => ?outside,
    fun s t g hcount hslots => filterEval_congr hcount hslots g,
    fun s mask pat hf hfull => ⟨_, exec_freg_dropped hf hfull mask pat, rfl, rfl, fun _ => rfl⟩,
    fun s g _ h hmasks => ?exact⟩
  case value =>
    obtain ⟨e, he, hmatch, hpat⟩ | ⟨_, hnone⟩ := filterEval_nonempty_cases h g
    · obtain rfl : e.pat = v := congrArg Prod.snd (hpat.symm.trans hv)
      obtain ⟨i, hi, hslot⟩ := mem_validEntries_iff.mp he
      exact ⟨i, e, hi, hslot, rfl, hmatch.symm, pat_within_mask hmatch⟩
    · cases hnone.symm.trans hv
  case outside =>
    exact Bool.eq_false_iff.mpr fun hmatch => hout (pat_within_mask ((entryMatches_iff g e).mp hmatch))
  case exact =>
    rw [filterEval_matched_iff h]
    constructor
    · rintro ⟨e, he, hmatch⟩
      obtain ⟨i, hi, hslot⟩ := mem_validEntries_iff.mp he
      exact ⟨i, e, hi, hslot, (matches_fullMask_iff (hmasks i e hi hslot)).mp hmatch⟩
    · rintro ⟨i, e, hi, hslot, hpat⟩
      exact ⟨e, mem_validEntries_iff.mpr ⟨i, hi, hslot⟩, (matches_fullMask_iff (hmasks i e hi hslot)).mpr hpat⟩

/-- Settles O21: the effect past the halted check, HALTED, and format N. -/
theorem fclrEmptiesTheTable : Obligations.FclrEmptiesTheTable :=
  ⟨fun _ hf => exec_fclr_running hf, fun _ hf => exec_halted hf rfl,
    formatRule_N fun _ data ho => decode_of_opcode ho data⟩

/-- Settles O22: the effect below and at the capacity, in both of which the count afterwards is not 0; HALTED,
and format MP. -/
theorem fregStoresOrDropsTheEntry : Obligations.FregStoresOrDropsTheEntry := by
  refine ⟨fun s mask pat hf hroom => ?stored, fun s mask pat hf hfull => ?dropped,
    fun _ _ _ hf => exec_halted hf rfl, fun s t mask pat hs hf h => ?nonempty,
    formatRule_of_decode (fun c => bne_eq_false_iff_eq.trans (reserved_MP c).symm)
      fun _ data ho => decode_of_opcode ho data⟩
  case stored =>
    rw [exec_freg_stored hf hroom, nonempty_after_store hroom]
    rfl
  case dropped =>
    rw [exec_freg_dropped hf hfull, fregResponse, ofBool_nonempty]
    rfl
  case nonempty =>
    obtain ⟨hcap, _, _⟩ := hs
    rcases Nat.lt_or_ge s.ftCount.toNat s.filterCapacity.toNat with hroom | hfull
    · rw [exec_freg_stored hf hroom] at h
      cases h
      exact ⟨_, rfl, (fregResponse_getLsbD_zero _ _ _).trans (nonempty_after_store hroom)⟩
    · rw [exec_freg_dropped hf hfull] at h
      cases h
      exact ⟨_, rfl, (fregResponse_getLsbD_zero _ _ _).trans (nonempty_of_full hcap hfull)⟩

/-- Settles O23: the effect past the halted check, HALTED, and format G. -/
theorem fevalReportsTheMatch : Obligations.FevalReportsTheMatch := by
  refine ⟨fun s gid hf => ?_, fun _ _ hf => exec_halted hf rfl,
    formatRule_of_decode (fun c => bne_eq_false_iff_eq.trans (reserved_G c).symm)
      fun _ data ho => decode_of_opcode ho data⟩
  rw [exec_feval_running hf, fevalResponse, ofBool_eq_ite]
  rfl

/-- Settles O24: the effect past the halted check, HALTED, and format N. -/
theorem fcntReportsTheCount : Obligations.FcntReportsTheCount := by
  refine ⟨fun s hf => ?_, fun _ hf => exec_halted hf rfl,
    formatRule_N fun _ data ho => decode_of_opcode ho data⟩
  rw [exec_fcnt_running hf, fcntResponse_eq]
  rfl

end Sys2Proof.Machine
end

section
/-! SUPPORT. The pack and unpack functions of the codec (R78, R79) by the two fields of an arbitration id, the
group-id in bits 28:18 and the sender identity in bits 17:0, and their laws (R83). -/

namespace Sys2Proof.Machine

/-! ### Operands within the precondition -/

/-- The low 11 bits of a value below `2^11`, on the 16-bit group-id datapath, are the value. -/
theorem setWidth_low11_toNat {w : Nat} {x : BitVec w} (h : x.toNat < 2 ^ 11) :
    ((x.extractLsb' 0 11).setWidth 16).toNat = x.toNat := by
  rw [BitVec.toNat_setWidth_of_le (by decide), BitVec.extractLsb'_toNat]
  exact Nat.mod_eq_of_lt h

/-- A group-id of 11 bits is its low 11 bits. -/
theorem setWidth_low11 {g : GroupId} (h : g.toNat < 2 ^ 11) : (g.extractLsb' 0 11).setWidth 16 = g :=
  BitVec.eq_of_toNat_eq (setWidth_low11_toNat h)

/-- A sender identity of 18 bits has no bit in the group-id field. -/
theorem identity_gidField_eq_zero {s : BitVec 32} (h : s.toNat < 2 ^ 18) : s.extractLsb' 18 11 = 0 := by
  apply BitVec.eq_of_toNat_eq
  rw [BitVec.extractLsb'_toNat, Nat.shiftRight_eq_div_pow, Nat.div_eq_of_lt h]
  rfl

/-! ### The fields of a packed id -/

/-- The group-id field is the group-id's low 11 bits, with the identity's bits 28:18 ORed in (R78). -/
theorem codecEncode_gidField (g : GroupId) (s : BitVec 32) :
    (codecEncode g s).extractLsb' 18 11 = g.extractLsb' 0 11 ||| s.extractLsb' 18 11 := by
  have hshift : (g.setWidth 32 <<< 18).extractLsb' 18 11 = g.extractLsb' 0 11 := by
    apply BitVec.eq_of_getLsbD_eq
    intro i hi
    simp [hi, show 18 + i < 32 by omega]
  rw [codecEncode, BitVec.extractLsb'_setWidth_of_le (by decide), BitVec.extractLsb'_or, hshift]

/-- The identity field is the identity's low 18 bits (R78). -/
theorem codecEncode_sidField (g : GroupId) (s : BitVec 32) :
    (codecEncode g s).extractLsb' 0 18 = s.extractLsb' 0 18 := by
  have hshift : (g.setWidth 32 <<< 18).extractLsb' 0 18 = 0 := by
    apply BitVec.eq_of_getLsbD_eq
    intro i hi
    simp [hi]
  rw [codecEncode, BitVec.extractLsb'_setWidth_of_le (by decide), BitVec.extractLsb'_or, hshift]
  exact BitVec.zero_or

/-- Within the identity's precondition a packed id is the two fields, one after the other (R78). -/
theorem codecEncode_eq_append (g : GroupId) {s : BitVec 32} (hs : s.toNat < 2 ^ 18) :
    codecEncode g s = g.extractLsb' 0 11 ++ s.extractLsb' 0 18 := by
  have hgid : (codecEncode g s).extractLsb' 18 11 = g.extractLsb' 0 11 := by
    rw [codecEncode_gidField, identity_gidField_eq_zero hs]
    exact BitVec.or_zero
  rw [← hgid, ← codecEncode_sidField g s]
  exact (BitVec.extractLsb'_append_extractLsb' (w := 11) (len := 18)).symm

/-- A packed id as a number: the shift and OR of the source, kept to 29 bits (R78). -/
theorem codecEncode_toNat (g : GroupId) (s : BitVec 32) :
    (codecEncode g s).toNat = ((g.toNat * 2 ^ 18) ||| s.toNat) % 2 ^ 29 := by
  have hg : g.toNat % 2 ^ 32 = g.toNat := Nat.mod_eq_of_lt (g.isLt.trans (by decide))
  rw [codecEncode, BitVec.toNat_setWidth, BitVec.toNat_or, BitVec.toNat_shiftLeft, BitVec.toNat_setWidth, hg,
    Nat.shiftLeft_eq, Nat.or_mod_two_pow, Nat.mod_mod_of_dvd _ (by decide), ← Nat.or_mod_two_pow]

/-! ### Unpacking -/

/-- An extended id unpacks to its two fields (R79). -/
theorem codecDecode_extended (raw : ArbId) :
    codecDecode true raw = some ((raw.extractLsb' 18 11).setWidth 16, raw.extractLsb' 0 18) := rfl

/-- A standard id of 11 bits unpacks to itself and identity 0 (R79). -/
theorem codecDecode_standard {raw : ArbId} (h : raw.toNat < 0x800) :
    codecDecode false raw = some ((raw.extractLsb' 0 11).setWidth 16, 0) :=
  if_pos h

/-- A standard id of more than 11 bits does not unpack (R79). -/
theorem codecDecode_stdIdRange {raw : ArbId} (h : 0x800 ≤ raw.toNat) : codecDecode false raw = none :=
  if_neg (Nat.not_lt.mpr h)

/-- Every extended id and every standard id of 11 bits unpacks (R79). -/
theorem exists_codecDecode_eq_some {ext : Bool} {raw : ArbId} (h : ext = true ∨ raw.toNat < 0x800) :
    ∃ g sid, codecDecode ext raw = some (g, sid) := by
  obtain ⟨_, hext⟩ | ⟨_, _, hstd⟩ | ⟨hext, hrange, _⟩ := codecDecode_cases ext raw
  · exact ⟨_, _, hext⟩
  · exact ⟨_, _, hstd⟩
  · simp [hext, Nat.not_lt.mpr hrange] at h

/-- The group-id of an extended id is `raw >> 18`, as a number (R79). -/
theorem gidField_toNat (raw : ArbId) : ((raw.extractLsb' 18 11).setWidth 16).toNat = raw.toNat / 2 ^ 18 := by
  rw [BitVec.toNat_setWidth_of_le (by decide), BitVec.extractLsb'_toNat, Nat.shiftRight_eq_div_pow]
  exact Nat.mod_eq_of_lt (Nat.div_lt_of_lt_mul raw.isLt)

/-- The identity of an extended id is `raw & 0x3FFFF`, as a number (R79). -/
theorem sidField_toNat (raw : ArbId) : (raw.extractLsb' 0 18).toNat = raw.toNat % 2 ^ 18 :=
  BitVec.extractLsb'_toNat 0 18 raw

/-! ### Pack and unpack are inverse -/

/-- Unpacking inverts packing within the precondition (R83). -/
theorem codecDecode_codecEncode {g : GroupId} {s : BitVec 32} (hg : g.toNat < 2 ^ 11)
    (hs : s.toNat < 2 ^ 18) : codecDecode true (codecEncode g s) = some (g, s.extractLsb' 0 18) := by
  rw [codecDecode_extended, codecEncode_eq_append g hs, BitVec.extractLsb'_append_eq_left,
    BitVec.extractLsb'_append_eq_right, setWidth_low11 hg]

/-- Packing inverts unpacking for every 29-bit id (R83). -/
theorem codecEncode_fields (r : ArbId) :
    codecEncode ((r.extractLsb' 18 11).setWidth 16) ((r.extractLsb' 0 18).setWidth 32) = r := by
  have hs : ((r.extractLsb' 0 18).setWidth 32).toNat < 2 ^ 18 := by
    rw [BitVec.toNat_setWidth_of_le (by decide)]
    exact (r.extractLsb' 0 18).isLt
  rw [codecEncode_eq_append _ hs, BitVec.extractLsb'_setWidth_of_le (by decide),
    BitVec.extractLsb'_setWidth_of_le (by decide), BitVec.extractLsb'_eq_self, BitVec.extractLsb'_eq_self]
  exact BitVec.extractLsb'_append_extractLsb' (w := 11) (len := 18)

/-- A group-id of 11 bits is a standard id that unpacks to it (R83). -/
theorem codecDecode_standard_gid {g : GroupId} (hg : g.toNat < 2 ^ 11) :
    codecDecode false (g.setWidth 29) = some (g, 0) := by
  have hstd : (g.setWidth 29).toNat < 0x800 := by
    rwa [BitVec.toNat_setWidth_of_le (by decide)]
  rw [codecDecode_standard hstd, BitVec.extractLsb'_setWidth_of_le (by decide), setWidth_low11 hg]

/-! ### The statements about pack and unpack -/

/-- Settles O26: the two fields of a packed id, and the source's shift and OR as a number. -/
theorem codecEncodePacksTheFields : Obligations.CodecEncodePacksTheFields :=
  ⟨fun g _ _ hs => codecEncode_eq_append g hs,
    fun g s => ⟨codecEncode_gidField g s, codecEncode_sidField g s⟩, codecEncode_toNat⟩

/-- Settles O31: the inverses of pack and unpack, and for the fourth law that the frame appended is SEND's. -/
theorem codecLaws : Obligations.CodecLaws := by
  refine ⟨fun g s hg hs => ⟨_, codecDecode_codecEncode hg hs, ?identity⟩,
    fun r => ⟨_, _, codecDecode_extended r, codecEncode_fields r⟩,
    fun _ hg => codecDecode_standard_gid hg, fun s t gid len data f h htx => ?send⟩
  case identity =>
    rw [BitVec.extractLsb'_toNat]
    exact Nat.mod_eq_of_lt hs
  case send =>
    obtain hsame | ⟨gid, len, data, _, hframe⟩ := (executes_of_exec h).tx_cases
    · simp [htx] at hsame
    · obtain rfl : f = sendFrame gid len data s := by simpa [htx] using hframe
      exact codecEncode_bits_17_16 gid s.nodeId

end Sys2Proof.Machine
end

section
/-! SUPPORT. The commands that pack, unpack, send and receive (R80 to R82, R86, R87): the effect of each in a
block that is not faulted, and the payload that moves. -/

namespace Sys2Proof.Machine

/-! ### ENC and DEC in a block that is not faulted -/

/-- ENC answers the packed id and writes nothing (R81). -/
theorem exec_enc_running {s : State} (hf : s.faulted = false) (gid : GroupId) (sid : BitVec 32) :
    exec (.enc gid sid) s = .next (s.answered (encResponse (codecEncode gid sid))) :=
  unlessHalted_running hf _ _

/-- DEC of an id that unpacks answers its fields and writes nothing (R82). -/
theorem exec_dec_running {s : State} (hf : s.faulted = false) {ext : Bool} {raw : ArbId} {g : GroupId}
    {sid : BitVec 18} (hd : codecDecode ext raw = some (g, sid)) :
    exec (.dec ext raw) s = .next (s.answered (decResponse g sid)) := by
  simp only [exec, execDec, unlessHalted_running hf, hd]
  rfl

/-- DEC of a standard id of more than 11 bits faults (R79, R82). -/
theorem exec_dec_stdIdRange {s : State} (hf : s.faulted = false) {raw : ArbId} (h : 0x800 ≤ raw.toNat) :
    exec (.dec false raw) s = .next (s.faultEntered 0x03 0xA) := by
  simp only [exec, execDec, unlessHalted_running hf, codecDecode_stdIdRange h]
  exact raiseFault_faultEntered .stdIdRange 0xA s

/-! ### SEND and RECV in a block that is not faulted -/

/-- SEND appends its frame, answers its length and id, and writes nothing else (R86). -/
theorem exec_send_emits {s : State} (hf : s.faulted = false) (gid : GroupId) (len : BitVec 8)
    (data : Word64) :
    exec (.send gid len data) s = .next ((emitFrame (sendFrame gid len data s) s).answered
      (sendResponse (payloadCap len) (codecEncode gid (s.nodeId.setWidth 32)))) :=
  unlessHalted_running hf _ _

/-- RECV takes a pending frame whose id unpacks, retriggers, and answers the filter's result (R87). -/
theorem exec_recv_frame {s : State} (hf : s.faulted = false) (hp : s.rxPend = true) {g : GroupId}
    {sid : BitVec 18} (hd : codecDecode s.rxExt s.rxId = some (g, sid)) :
    exec .recv s = .next ((takeFrame g sid (arm s.lvDur (applyCheck s))).answered
      (recvResponse (recvKind (filterEval s g).1) (filterEval s g).2)) := by
  simp only [exec, execRecv, unlessHalted_running hf, hp, if_true, hd]
  rfl

/-- RECV faults on a pending standard frame with an id of more than 11 bits (R79, R87). -/
theorem exec_recv_stdIdRange {s : State} (hf : s.faulted = false) (hp : s.rxPend = true)
    (hstd : s.rxExt = false) (h : 0x800 ≤ s.rxId.toNat) :
    exec .recv s = .next (s.faultEntered 0x03 0xC) := by
  simp only [exec, execRecv, unlessHalted_running hf, hp, if_true, hstd, codecDecode_stdIdRange h]
  exact raiseFault_faultEntered .stdIdRange 0xC s

/-! ### The fields of words and responses -/

/-- `EXT` is the bit of its one-bit field (R50). -/
theorem beq_one_eq_extField (c : Word64) : (c.extractLsb' 32 1 == 1) = extField c := by
  rw [← ofBool_extField]
  cases extField c <;> rfl

/-- RAW of ENC's response is its low 29 bits (R58). -/
theorem encResponse_eq (raw : ArbId) : encResponse raw = raw.setWidth 64 :=
  (BitVec.setWidth_eq_append (by decide)).symm

/-- An 11-bit group-id in DEC's response leaves the bits above it 0 (R58). -/
theorem decResponse_gid11 (g : BitVec 11) (sid : BitVec 18) :
    decResponse (g.setWidth 16) sid = 0#21 ++ g ++ 0#14 ++ sid := by
  have hgid : g.setWidth 16 = 0#5 ++ g := BitVec.setWidth_eq_append (by decide)
  have hfront : 0#16 ++ (0#5 ++ g) = 0#21 ++ g := BitVec.append_assoc'
  rw [decResponse, hgid]
  exact congrArg (· ++ 0#14 ++ sid) hfront

/-- With identity 0, bits 31:0 of DEC's response are 0 (R58). -/
theorem decResponse_gid11_zero (g : BitVec 11) : decResponse (g.setWidth 16) 0 = 0#21 ++ g ++ 0#32 :=
  (decResponse_gid11 g 0).trans BitVec.append_assoc

/-! ### The captured payload -/

/-- Entry k of a cut buffer is the buffer's entry before the cut, and 0 from it on (R84, R87). -/
theorem firstBytes_getElem (p : Payload) (n : Nat) (k : Fin 8) :
    (firstBytes p n)[k] = if k.val < n then p[k] else 0 := by
  have hcut := payloadByte_firstBytes p n k.isLt
  rwa [payloadByte_eq_getElem _ k.isLt, payloadByte_eq_getElem _ k.isLt] at hcut

/-! ### The statements -/

/-- Settles O27: the fields as numbers, and the fault of the two commands that unpack. -/
theorem codecDecodeUnpacksTheFields : Obligations.CodecDecodeUnpacksTheFields := by
  refine ⟨fun raw => ⟨_, _, codecDecode_extended raw, ?gid, ?sid⟩,
    fun raw h => ⟨_, codecDecode_standard h, ?std⟩, fun _ _ h hf => exec_dec_stdIdRange hf h,
    fun _ hf hp hstd h => exec_recv_stdIdRange hf hp hstd h⟩
  case gid => exact gidField_toNat raw
  case sid => exact sidField_toNat raw
  case std => exact setWidth_low11_toNat h

/-- Settles O28: SEND's frame and the registers RECV fills hold `payload_cap` of the length, and the bytes up
to it. -/
theorem payloadIsCappedAtEightBytes : Obligations.PayloadIsCappedAtEightBytes := by
  refine ⟨fun s gid len data hf => ?send, fun s hf hp hunpacks => ?recv⟩
  case send =>
    exact ⟨_, sendFrame gid len data s, exec_send_emits hf gid len data, rfl, hf, payloadCap_toNat len,
      sendBytes_length data len, fun _ hk => sendBytes_getElem? data len hk⟩
  case recv =>
    obtain ⟨g, sid, hd⟩ := exists_codecDecode_eq_some hunpacks
    refine ⟨_, exec_recv_frame hf hp hd, hf, payloadCap_toNat s.rxLen, fun k => ?_⟩
    rw [← payloadCap_toNat]
    exact firstBytes_getElem s.rxData _ k

/-- Settles O29: the effect past the halted check, HALTED, and format GS. -/
theorem encPacksAnId : Obligations.EncPacksAnId := by
  refine ⟨fun s gid sid hf => ?_, fun _ _ _ hf => exec_halted hf rfl,
    formatRule_of_decode (fun c => bne_eq_false_iff_eq.trans (reserved_GS c).symm)
      fun _ data ho => decode_of_opcode ho data⟩
  rw [exec_enc_running hf, encResponse_eq]
  rfl

/-- Settles O30: the effect past the halted check on ids that unpack and on one that does not; HALTED, and
format XR. -/
theorem decUnpacksAnId : Obligations.DecUnpacksAnId := by
  refine ⟨fun s raw hf => ?extended, fun s raw hf h => ?standard, fun _ _ hf h => exec_dec_stdIdRange hf h,
    fun _ _ _ hf => exec_halted hf rfl,
    formatRule_of_decode (f := .XR) (fun c => ?reserved) fun c data ho => ?word⟩
  case extended =>
    rw [exec_dec_running hf (codecDecode_extended raw), decResponse_gid11]
    rfl
  case standard =>
    rw [exec_dec_running hf (codecDecode_standard h), decResponse_gid11_zero]
    rfl
  case reserved => rw [Bool.or_eq_false_iff, bne_eq_false_iff_eq, bne_eq_false_iff_eq, reserved_XR]
  case word =>
    rw [beq_one_eq_extField]
    exact decode_of_opcode ho data

end Sys2Proof.Machine
end

section
/-! SUPPORT. The session sequencer and the transport's delivery (R84, R86 to R89): the length, the bytes and the
identity that move, in the spec's own form, and the laws of SEND and RECV. -/

namespace Sys2Proof.Machine

/-! ### The payload in the spec's form -/

/-- The capped length as the 4-bit registers and fields hold it (R80). -/
theorem payloadCap_eq_ofNat (n : BitVec 8) : payloadCap n = BitVec.ofNat 4 (min n.toNat 8) := by
  rw [← payloadCap_toNat, BitVec.ofNat_toNat, BitVec.setWidth_eq]

/-- The bytes of SEND's frame are those of the data word, up to the capped length (R86). -/
theorem sendBytes_eq_map_range (data : Word64) (len : BitVec 8) :
    sendBytes data len = (List.range (min len.toNat 8)).map fun k => data.extractLsb' (8 * k) 8 := by
  rw [← payloadCap_toNat]
  rfl

/-- A buffer cut at the capped length, entry by entry (R84, R87). -/
theorem firstBytes_payloadCap (p : Payload) (n : BitVec 8) :
    firstBytes p (payloadCap n).toNat =
      Vector.ofFn fun k : Fin 8 => if k.val < min n.toNat 8 then p[k] else 0 := by
  rw [payloadCap_toNat]
  apply Vector.ext
  intro k hk
  rw [Vector.getElem_ofFn]
  exact firstBytes_getElem p _ ⟨k, hk⟩

/-! ### The identity in the spec's form -/

/-- The group-id of an extended id is `raw >> 18` (R79). -/
theorem gidField_eq_shift (raw : ArbId) :
    (raw.extractLsb' 18 11).setWidth 16 = (raw >>> 18).setWidth 16 := by
  have hfits : raw.toNat / 2 ^ 18 < 2 ^ 16 := Nat.div_lt_of_lt_mul (raw.isLt.trans (by decide))
  apply BitVec.eq_of_toNat_eq
  rw [gidField_toNat, BitVec.toNat_setWidth, BitVec.toNat_ushiftRight, Nat.shiftRight_eq_div_pow,
    Nat.mod_eq_of_lt hfits]

/-- The group-id of a standard id of 11 bits is the id (R79). -/
theorem standardGid_eq_setWidth {raw : ArbId} (h : raw.toNat < 0x800) :
    (raw.extractLsb' 0 11).setWidth 16 = raw.setWidth 16 := by
  apply BitVec.eq_of_toNat_eq
  rw [setWidth_low11_toNat h, BitVec.toNat_setWidth, Nat.mod_eq_of_lt (h.trans (by decide))]

/-- What an id unpacks to, with shifts and widths (R79). -/
theorem codecDecode_eq_some {ext : Bool} {raw : ArbId} (h : ext = true ∨ raw.toNat < 0x800) :
    codecDecode ext raw =
      some (if ext = true then (raw >>> 18).setWidth 16 else raw.setWidth 16,
        if ext = true then raw.setWidth 18 else 0) := by
  cases ext with
  | true =>
    rw [codecDecode_extended, gidField_eq_shift, ← BitVec.setWidth_eq_extractLsb' (by decide)]
    rfl
  | false =>
    have hstd : raw.toNat < 0x800 := h.resolve_left Bool.false_ne_true
    rw [codecDecode_standard hstd, standardGid_eq_setWidth hstd]
    rfl

/-- SEND's id unpacks to the group-id it was given, when that has 11 bits, and this node (R83, R89). -/
theorem codecDecode_sendFrame {gid : GroupId} (hgid : gid.toNat < 2 ^ 11) (len : BitVec 8) (data : Word64)
    (s : State) :
    codecDecode true (sendFrame gid len data s).id = some (gid, s.nodeId.setWidth 18) := by
  have hnode : (s.nodeId.setWidth 32).toNat < 2 ^ 18 := by
    rw [BitVec.toNat_setWidth_of_le (by decide)]
    exact s.nodeId.isLt.trans (by decide)
  rw [sendFrame, codecDecode_codecEncode hgid hnode, ← BitVec.setWidth_eq_extractLsb' (by decide),
    BitVec.setWidth_setWidth_of_le _ (by decide)]

/-! ### RECV in a block that is not faulted, and its KIND -/

/-- RECV without a frame checks and answers NO_FRAME (R87). -/
theorem exec_recv_noFrame {s : State} (hf : s.faulted = false) (hp : s.rxPend = false) :
    exec .recv s = .next ((applyCheck s).answered (recvResponse 0 0)) := by
  simp only [exec, execRecv, unlessHalted_running hf, hp]
  rfl

/-- KIND is not 0 for a frame taken (R87). -/
theorem recvKind_ne_zero (matched : Bool) : recvKind matched ≠ 0 := by
  cases matched <;> decide

/-- KIND is 2 for a frame that the filter did not match (R87). -/
theorem recvKind_eq_two_iff (matched : Bool) : recvKind matched = 2 ↔ matched = false := by
  cases matched <;> decide

/-- The response of a running block's RECV that does not fault: KIND 0 without a frame, and KIND 2 for a frame
that the filter did not match (R87, R88). -/
theorem Executes.recv_kind {s t : State} (h : Executes .recv s t) (hf : s.faulted = false)
    (ht : t.faulted = false) :
    ∃ r : Word64, t.responses = s.responses ++ [r] ∧
      (r.extractLsb' 56 2 = 0 ↔ s.rxPend = false) ∧
      (r.extractLsb' 56 2 = 2 ↔ s.rxPend = true ∧ (filterEval s t.rxfGid).1 = false) := by
  cases h with
  | halted hhalted => cases hf.symm.trans hhalted
  | recvFault => cases ht
  | recvNoFrame _ hp =>
    refine ⟨_, rfl, ?_, ?_⟩ <;> rw [recvResponse_kind]
    · exact iff_of_true rfl hp
    · exact iff_of_false (by decide) fun ⟨hpend, _⟩ => Bool.false_ne_true (hp.symm.trans hpend)
  | @recvFrame g _ _ _ hp _ =>
    refine ⟨_, rfl, ?_, ?_⟩ <;> rw [recvResponse_kind]
    · exact iff_of_false (recvKind_ne_zero _) (by simp [hp])
    · exact (recvKind_eq_two_iff _).trans (and_iff_right hp).symm

/-! ### The statements -/

/-- Settles O35: of each case of RECV what it writes; a frame taken retriggers, so that LQRY then reports
ALIVE. -/
theorem recvLaws : Obligations.RecvLaws := by
  refine ⟨fun s t u hp hrecv hlchk => ?noFrame, fun s t hf hp hrecv ht => ?frame,
    fun s t hrecv hrem => ?armed, fun s t hrecv => ?frozen,
    fun s t hf hrecv ht => (executes_of_exec hrecv).recv_kind hf ht⟩
  case noFrame =>
    cases hf : s.faulted with
    | true =>
      cases (exec_halted hf rfl).symm.trans hrecv
      cases (exec_halted hf rfl).symm.trans hlchk
      rfl
    | false =>
      cases (exec_recv_noFrame hf hp).symm.trans hrecv
      cases (exec_lchk_running hf).symm.trans hlchk
      rfl
  case frame =>
    cases executes_of_exec hrecv with
    | halted hhalted => cases hf.symm.trans hhalted
    | recvNoFrame _ hnone => cases hp.symm.trans hnone
    | recvFault => cases ht
    | recvFrame =>
      refine ⟨rfl, rfl, _, exec_lqry_running hf, ?_⟩
      rw [aliveResponse_eq]
      rfl
  case armed =>
    cases executes_of_exec hrecv with
    | halted | recvNoFrame | recvFault => exact absurd rfl hrem
    | recvFrame _ hp => exact ⟨hp, rfl, rfl⟩
  case frozen =>
    cases executes_of_exec hrecv <;> exact ⟨rfl, rfl, rfl, rfl, rfl⟩

/-- Settles O36: SEND's two cases, HALTED and the frame appended, whose id unpacks to its fields. -/
theorem sendLaws : Obligations.SendLaws := by
  refine ⟨fun s t gid len data h => ?writes, fun s t gid len data hf hgid h => ?unpacks,
    fun s t gid len data r h hr hstatus => ?result⟩
  case writes =>
    cases executes_of_exec h <;> rfl
  case unpacks =>
    cases (exec_send_emits hf gid len data).symm.trans h
    exact ⟨_, rfl, codecDecode_sendFrame hgid len data s⟩
  case result =>
    cases executes_of_exec h with
    | halted =>
      cases List.append_cancel_left hr
      cases (haltedResponse_status s.cause).symm.trans hstatus
    | send =>
      cases List.append_cancel_left hr
      exact BitVec.getLsbD_append

/-- Settles O32: the step of a pending delivery, with the latched bytes entry by entry. -/
theorem deliveryFillsTheEmptyLatch : Obligations.DeliveryFillsTheEmptyLatch := by
  refine ⟨fun s ext id n b hp => ?empty, fun s ext id n b hp => ?full⟩
  case empty =>
    rw [step_deliver, deliver, hp, firstBytes_payloadCap]
    rfl
  case full => exact (step_deliver s ext id n b).trans (if_pos hp)

/-- Settles O33: the effect past the halted check, HALTED, and format GL. -/
theorem sendTransmitsOneFrame : Obligations.SendTransmitsOneFrame := by
  refine ⟨fun s gid len data hf => ?effect, fun _ _ _ _ hf => exec_halted hf rfl,
    formatRule_of_decode (f := .GL) (fun c => ?reserved) fun _ data ho => decode_of_opcode ho data⟩
  case effect =>
    rw [exec_send_emits hf, sendFrame, sendBytes_eq_map_range, payloadCap_eq_ofNat]
    rfl
  case reserved => rw [Bool.or_eq_false_iff, bne_eq_false_iff_eq, bne_eq_false_iff_eq, reserved_GL]

/-- Settles O34: the effect past the halted check without a frame, with one that unpacks and with one that does
not; HALTED, and format N. -/
theorem recvPollsOnce : Obligations.RecvPollsOnce := by
  refine ⟨fun s hf hp => ?noFrame, fun s hf hp hunpacks => ?frame,
    fun _ hf hp hstd h => exec_recv_stdIdRange hf hp hstd h, fun _ hf => exec_halted hf rfl,
    formatRule_N fun _ data ho => decode_of_opcode ho data⟩
  case noFrame =>
    rw [exec_recv_noFrame hf hp, applyCheck, aliveAfterCheck_eq]
    rfl
  case frame =>
    rw [exec_recv_frame hf hp (codecDecode_eq_some hunpacks), takeFrame, firstBytes_payloadCap,
      payloadCap_eq_ofNat]
    rfl

end Sys2Proof.Machine
end

section
/-! SUPPORT. The system commands in every state, halted or not (R90, R91): the register numbers as a table of
their values, and RDREG's answer for a number in it and for one that is not. -/

namespace Sys2Proof.Machine

/-! ### The values of the registers -/

/-- The assigned register numbers, each with its value in `s` (R28). -/
def registerTable (s : State) : List (BitVec 8 × Word32) :=
  [ (0x00, s.nodeId.setWidth 32), (0x01, s.ftCount.setWidth 32), (0x02, s.filterCapacity.setWidth 32),
    (0x03, s.lvDur), (0x04, s.lvRem), (0x05, if s.lvAlive = true then 1 else 0),
    (0x06, 0#12 ++ s.fopc ++ s.cause ++ 0#7 ++ (if s.faulted = true then 1#1 else 0#1)),
    (0x07, s.rxfGid.setWidth 32), (0x08, s.rxfSid.setWidth 32), (0x09, s.rxfLen.setWidth 32),
    (0x0A, s.rxfData[3] ++ s.rxfData[2] ++ s.rxfData[1] ++ s.rxfData[0]),
    (0x0B, s.rxfData[7] ++ s.rxfData[6] ++ s.rxfData[5] ++ s.rxfData[4]) ]

/-- A packed word within the buffer, by the buffer's entries (R34). -/
theorem packWord32_eq_getElem (p : Payload) {k : Nat} (hk : k + 3 < 8) :
    packWord32 p k = p[k + 3] ++ p[k + 2] ++ p[k + 1] ++ p[k] := by
  simp (disch := omega) only [packWord32, payloadByte_eq_getElem]

/-- LV_ALIVE as a register value (R28). -/
theorem aliveRegister_eq (alive : Bool) :
    0#31 ++ BitVec.ofBool alive = if alive = true then 1#32 else 0#32 := by
  cases alive <;> rfl

/-- A number of the table reads as its value (R28). -/
theorem readRegister_of_mem_registerTable (s : State) :
    ∀ row ∈ registerTable s, readRegister row.1 s = some row.2 := by
  have halive := congrArg some (aliveRegister_eq s.lvAlive)
  have hfault := congrArg (fun bit => some (0#12 ++ s.fopc ++ s.cause ++ 0#7 ++ bit)) (ofBool_eq_ite s.faulted)
  have hdata0 := congrArg some (packWord32_eq_getElem s.rxfData (k := 0) (by decide))
  have hdata1 := congrArg some (packWord32_eq_getElem s.rxfData (k := 4) (by decide))
  simp only [registerTable, List.forall_mem_cons]
  exact ⟨rfl, rfl, rfl, rfl, rfl, halive, hfault, rfl, rfl, rfl, hdata0, hdata1, nofun⟩

/-- A number above the table is unassigned (R28). -/
theorem readRegister_unassigned (s : State) {regno : BitVec 8} (h : 0x0C ≤ regno.toNat) :
    readRegister regno s = none := by
  obtain ⟨k, hk⟩ := Nat.exists_eq_add_of_le' h
  rw [readRegister, hk]
  rfl

/-! ### What each command does -/

/-- NOP only answers, halted or not (R90, R96). -/
theorem exec_nop (s : State) : exec .nop s = .next (s.answered okResponse) :=
  unlessHalted_system rfl s _

/-- RDREG of an unassigned number faults, halted or not (R91, R96). -/
theorem exec_rdreg_unassigned {s : State} {regno : BitVec 8} (h : readRegister regno s = none) :
    exec (.rdreg regno) s = .next (s.faultEntered 0x04 0xD) := by
  simp only [exec, execRdreg, unlessHalted_system (opc := 0xD) rfl, h, raiseFault_faultEntered]
  rfl

/-- The register's value is the response's low word (R58). -/
theorem rdregResponse_eq (v : Word32) : rdregResponse v = v.setWidth 64 :=
  (BitVec.setWidth_eq_append (by decide)).symm

/-! ### The statements -/

/-- Settles O38: the effect in every state, and format N. -/
theorem nopDoesNothing : Obligations.NopDoesNothing :=
  ⟨exec_nop, formatRule_N fun _ data ho => decode_of_opcode ho data⟩

/-- Settles O39: the effect for an assigned and for an unassigned number in every state, and format R. -/
theorem rdregReadsTheNumberedRegister : Obligations.RdregReadsTheNumberedRegister := by
  refine ⟨fun s regno v hmem => ?assigned,
    fun s regno h => exec_rdreg_unassigned (readRegister_unassigned s h),
    formatRule_of_decode (fun c => bne_eq_false_iff_eq.trans (reserved_R c).symm)
      fun _ data ho => decode_of_opcode ho data⟩
  have hread : readRegister regno s = some v := readRegister_of_mem_registerTable s (regno, v) hmem
  rw [exec_rdreg_assigned hread, rdregResponse_eq]
  rfl

end Sys2Proof.Machine
end

section
/-! SUPPORT. The report of a run against the states the run reaches (R96, log entry 10). -/

namespace Sys2Proof.Machine

/-- One of the states of the run of `n` steps is halted, the first and the last among them (R96). -/
def ReachesHalted (n : Nat) (s : State) : Prop :=
  ∃ (m : Nat) (t : State), m ≤ n ∧ runSteps m s = .next t ∧ t.faulted = true

/-- A run from the halted state is in it from the start. -/
theorem reachesHalted_of_faulted {s : State} (hf : s.faulted = true) (n : Nat) : ReachesHalted n s :=
  ⟨0, s, Nat.zero_le n, rfl, hf⟩

/-- A run of no steps has its first state only. -/
theorem not_reachesHalted_zero {s : State} (hf : s.faulted = false) : ¬ReachesHalted 0 s := by
  rintro ⟨m, t, hm, hrun, ht⟩
  cases Nat.le_zero.mp hm
  cases hrun
  simp [hf] at ht

/-- From a state that is not halted, the halted state is reached in the rest of the run or not at all. -/
theorem reachesHalted_succ_next {s t : State} (hf : s.faulted = false) (h : step s = .next t) (n : Nat) :
    ReachesHalted (n + 1) s ↔ ReachesHalted n t := by
  constructor
  · rintro ⟨m, u, hm, hrun, hu⟩
    cases m with
    | zero => exact absurd ⟨0, u, Nat.le_refl 0, hrun, hu⟩ (not_reachesHalted_zero hf)
    | succ m => exact ⟨m, u, Nat.le_of_succ_le_succ hm, (runSteps_succ_next h m).symm.trans hrun, hu⟩
  · rintro ⟨m, u, hm, hrun, hu⟩
    exact ⟨m + 1, u, Nat.succ_le_succ hm, (runSteps_succ_next h m).trans hrun, hu⟩

/-- From a state that is not halted, a run with a refused first step reaches no other state. -/
theorem not_reachesHalted_of_refused {s : State} {r : Refusal} (hf : s.faulted = false)
    (h : step s = .refused r) (n : Nat) : ¬ReachesHalted n s := by
  rintro ⟨m, t, hm, hrun, ht⟩
  cases m with
  | zero => exact not_reachesHalted_zero hf ⟨0, t, Nat.le_refl 0, hrun, ht⟩
  | succ m => cases (runSteps_succ_refused h m).symm.trans hrun

/-- A run reaches the halted state and is reported as faulted; or it does not, and is reported as clean if it
was taken to its end and as refused if it stopped before (R96, log entry 10). -/
theorem runReport_cases (n : Nat) (s : State) :
    (runReport n s = .faulted ∧ ReachesHalted n s) ∨
    (runReport n s = .clean ∧ ¬ReachesHalted n s ∧ ∃ t, runSteps n s = .next t) ∨
    (runReport n s = .refused ∧ ¬ReachesHalted n s ∧ ∃ r, runSteps n s = .refused r) := by
  induction n generalizing s with
  | zero =>
    cases hf : s.faulted
    · exact .inr (.inl ⟨by simp [runReport, hf], not_reachesHalted_zero hf, s, rfl⟩)
    · exact .inl ⟨runReport_of_faulted hf 0, reachesHalted_of_faulted hf 0⟩
  | succ n ih =>
    cases hf : s.faulted
    · obtain ⟨t, h, _⟩ | ⟨_, _, h⟩ := step_cases s
      · rw [runReport_succ_next hf h, reachesHalted_succ_next hf h, runSteps_succ_next h]
        exact ih t
      · exact .inr (.inr ⟨runReport_succ_refused hf h n, not_reachesHalted_of_refused hf h _,
          _, runSteps_succ_refused h n⟩)
    · exact .inl ⟨runReport_of_faulted hf _, reachesHalted_of_faulted hf _⟩

/-- Settles O56: a run has one of the three reports, each with what it says of the run, and these exclude
each other. -/
theorem runIsFaultedExactlyIfItReachesTheHaltedState :
    Obligations.RunIsFaultedExactlyIfItReachesTheHaltedState := by
  intro n s neverHalted
  have hnever : neverHalted ↔ ¬ReachesHalted n s := by
    simp only [neverHalted, ReachesHalted, not_exists, not_and, Bool.not_eq_true]
  rw [hnever]
  change (_ ↔ ReachesHalted n s) ∧ _
  obtain ⟨hreport, hreached⟩ | ⟨hreport, hnot, t, hrun⟩ | ⟨hreport, hnot, r, hrun⟩ := runReport_cases n s
  · simp [hreport, hreached]
  · simp [hreport, hnot, hrun]
  · simp [hreport, hnot, hrun]

end Sys2Proof.Machine
end

section
/-! SUPPORT. The commands that fault (R95 to R97): a response of STATUS FAULT comes with fault entry, and in a
halted block only from NOP and RDREG. -/

namespace Sys2Proof.Machine

/-- The causes for which a command faults whether the block is halted or not (R97). -/
def FaultsWhileHalted (s : State) (cmd data : Word64) (c : FaultCause) : Prop :=
  (decode cmd data = .error c ∧ runsWhileHalted (opcodeField cmd) = true) ∨
  (c = .illegalRegno ∧ ∃ regno, decode cmd data = .ok (.rdreg regno) ∧ readRegister regno s = none)

/-- HALTED is another STATUS than FAULT (R58, R96). -/
theorem State.haltedAnswer_status_ne (s : State) :
    ∃ r, s.haltedAnswer.responses = s.responses ++ [r] ∧ r.extractLsb' 60 4 ≠ 1 := by
  refine ⟨haltedResponse s.cause, rfl, ?_⟩
  rw [haltedResponse_status]
  decide

/-- A command that decodes enters a fault, in a halted block only as RDREG of an unassigned number, or it is
answered another STATUS than FAULT (R95, R97). -/
theorem Executes.fault_or_status {i : Instr} {s t : State} (h : Executes i s t) :
    (∃ c, t = s.faultEntered (causeCode c) (opcodeOf i) ∧
      (s.faulted = true → c = .illegalRegno ∧ ∃ regno, i = .rdreg regno ∧ readRegister regno s = none)) ∨
    ∃ r, t.responses = s.responses ++ [r] ∧ r.extractLsb' 60 4 ≠ 1 := by
  have hok {r : Word64} (hfields : r &&& ~~~resultFields (opcodeOf i) = 0) : r.extractLsb' 60 4 ≠ 1 := by
    rw [status_eq_zero_of_fields hfields]
    decide
  cases h with
  | decFault hf | recvFault hf =>
    exact .inl ⟨.stdIdRange, rfl, fun hhalted => absurd (hf.symm.trans hhalted) Bool.false_ne_true⟩
  | rdregFault hread => exact .inl ⟨.illegalRegno, rfl, fun _ => ⟨rfl, _, rfl, hread⟩⟩
  | halted => exact .inr s.haltedAnswer_status_ne
  | nop | lset | lrtg | fclr => exact .inr ⟨_, rfl, hok BitVec.zero_and⟩
  | lchk | lqry => exact .inr ⟨_, rfl, hok (aliveResponse_fields _)⟩
  | fregStored | fregDropped => exact .inr ⟨_, rfl, hok (fregResponse_fields _ _ _)⟩
  | feval => exact .inr ⟨_, rfl, hok (fevalResponse_fields _ _)⟩
  | fcnt => exact .inr ⟨_, rfl, hok (fcntResponse_fields _)⟩
  | enc => exact .inr ⟨_, rfl, hok (encResponse_fields _)⟩
  | dec => exact .inr ⟨_, rfl, hok (decResponse_fields _ _)⟩
  | send => exact .inr ⟨_, rfl, hok (sendResponse_fields _ _)⟩
  | recvNoFrame | recvFrame => exact .inr ⟨_, rfl, hok (recvResponse_fields _ _)⟩
  | rdreg => exact .inr ⟨_, rfl, hok (rdregResponse_fields _)⟩

/-- Every command word enters a fault with its opcode, in a halted block only for the causes left there, or it
is answered another STATUS than FAULT (R59, R95, R97). -/
theorem step_fault_or_status (s : State) (cmd data : Word64) :
    ∃ t, step (s.withNext (.command cmd data)) = .next t ∧
      ((∃ c, t = s.accepted.faultEntered (causeCode c) (opcodeField cmd) ∧
        (s.faulted = true → FaultsWhileHalted s cmd data c)) ∨
      ∃ r, t.responses = s.responses ++ [r] ∧ r.extractLsb' 60 4 ≠ 1) := by
  cases hd : decode cmd data with
  | ok i =>
    obtain ⟨t, hexec, he⟩ := exec_executes i s.accepted
    refine ⟨t, (step_of_decode_ok hd s).trans hexec, he.fault_or_status.imp_left ?_⟩
    rintro ⟨c, ht, hhalted⟩
    rw [(encodeCmd_of_decode hd).1] at ht
    refine ⟨c, ht, fun hf => ?_⟩
    obtain ⟨hc, regno, rfl, hread⟩ := hhalted hf
    exact .inr ⟨hc, regno, hd, hread⟩
  | error c =>
    by_cases hh : s.faulted = true ∧ runsWhileHalted (opcodeField cmd) = false
    · exact ⟨_, step_halted hh.1 hh.2 data, .inr s.accepted.haltedAnswer_status_ne⟩
    · exact ⟨_, step_rejected hd hh, .inl ⟨c, rfl, fun hf =>
        .inl ⟨hd, Bool.eq_true_of_not_eq_false fun ho => hh ⟨hf, ho⟩⟩⟩⟩

/-- A command answered STATUS FAULT entered the fault of the response's cause (R95). -/
theorem step_fault_of_status {s t : State} {cmd data r : Word64}
    (h : step (s.withNext (.command cmd data)) = .next t) (hr : t.responses = s.responses ++ [r])
    (hstatus : r.extractLsb' 60 4 = 1) :
    ∃ c, r = faultResponse (causeCode c) ∧ t = s.accepted.faultEntered (causeCode c) (opcodeField cmd) ∧
      (s.faulted = true → FaultsWhileHalted s cmd data c) := by
  obtain ⟨t', h', hcases⟩ := step_fault_or_status s cmd data
  cases h.symm.trans h'
  obtain ⟨c, rfl, hhalted⟩ | ⟨r', hr', hne⟩ := hcases
  · cases List.append_cancel_left hr
    exact ⟨c, rfl, rfl, hhalted⟩
  · cases List.append_cancel_left (hr.symm.trans hr')
    exact absurd hstatus hne

/-- Settles O41: a response of STATUS FAULT comes with fault entry, whose cause is its low byte. -/
theorem faultEntryIsPrecise : Obligations.FaultEntryIsPrecise := by
  intro s t cmd data r h hr hstatus
  obtain ⟨c, rfl, rfl, _⟩ := step_fault_of_status h hr hstatus
  rw [faultResponse_cause]
  exact ⟨rfl, rfl⟩

/-! ### The faults that are left in a halted block -/

/-- The check of the reserved bits refuses a word only for one that is 1 (R56). -/
theorem eq_reservedBits_of_ifReservedClear_error {f : Format} {cmd : Word64} {i : Instr} {c : FaultCause}
    (h : ifReservedClear f cmd i = .error c) : c = .reservedBits ∧ cmd &&& reservedMask f ≠ 0 := by
  obtain ⟨_, hok⟩ | ⟨hset, herr⟩ := ifReservedClear_cases f cmd i
  · cases hok.symm.trans h
  · cases herr.symm.trans h
    exact ⟨rfl, hset⟩

/-- A word that decodes to RDREG has RDREG's opcode, no reserved bit, and the number in `REGNO` (R52). -/
theorem decode_eq_rdreg {cmd data : Word64} {regno : BitVec 8} (hd : decode cmd data = .ok (.rdreg regno)) :
    opcodeField cmd = 0xD ∧ cmd.extractLsb' 8 52 = 0 ∧ regnoField cmd = regno := by
  obtain ⟨ho, hword⟩ := encodeCmd_of_decode hd
  have hopc : opcodeField cmd = 0xD := ho.symm
  have hclear := ((wellFormedWord_iff cmd).mp (wellFormedWord_of_decode hd)).2
  rw [hopc] at hclear
  refine ⟨hopc, (reserved_R cmd).mp hclear, ?_⟩
  rw [← hword, regnoField_encodeCmd]

/-- Every number below 0x0C is assigned (R28). -/
theorem le_regno_of_unassigned {s : State} {regno : BitVec 8} (h : readRegister regno s = none) :
    0x0C ≤ regno.toNat := by
  by_contra hlt
  rw [readRegister] at h
  interval_cases regno.toNat <;> cases h

/-- The faults left in a halted block, with their causes, are those of NOP and RDREG words (R97). -/
theorem FaultsWhileHalted.cases {s : State} {cmd data : Word64} {c : FaultCause}
    (h : FaultsWhileHalted s cmd data c) :
    (causeCode c = 0x02 ∧ opcodeField cmd = 0x0 ∧ cmd.extractLsb' 0 60 ≠ 0) ∨
    (causeCode c = 0x02 ∧ opcodeField cmd = 0xD ∧ cmd.extractLsb' 8 52 ≠ 0) ∨
    (causeCode c = 0x04 ∧ opcodeField cmd = 0xD ∧ cmd.extractLsb' 8 52 = 0 ∧
      0x0C ≤ (regnoField cmd).toNat) := by
  obtain ⟨herr, hruns⟩ | ⟨rfl, regno, hd, hread⟩ := h
  · have hreserved {f i} (hdec : decode cmd data = ifReservedClear f cmd i) :=
      eq_reservedBits_of_ifReservedClear_error (hdec.symm.trans herr)
    obtain ho | ho := (runsWhileHalted_iff _).mp hruns
    · obtain ⟨rfl, hset⟩ := hreserved (decode_of_opcode ho data)
      exact .inl ⟨rfl, ho, mt (reserved_N cmd).mpr hset⟩
    · obtain ⟨rfl, hset⟩ := hreserved (decode_of_opcode ho data)
      exact .inr (.inl ⟨rfl, ho, mt (reserved_R cmd).mpr hset⟩)
  · obtain ⟨ho, hclear, rfl⟩ := decode_eq_rdreg hd
    exact .inr (.inr ⟨rfl, ho, hclear, le_regno_of_unassigned hread⟩)

/-- No step but reset writes the fault register of a faulted block (R23, R97). -/
theorem fault_kept_of_not_reset {s t : State} {e : Event} {rest : List Event} (hp : s.pending = e :: rest)
    (h : step s = .next t) (hf : s.faulted = true) (he : ¬e.IsReset) :
    t.faulted = true ∧ t.cause = s.cause ∧ t.fopc = s.fopc := by
  obtain ⟨_, _, _, _, _, _, hfault, _⟩ := onlyTheNamedStepsWriteEachField s t e rest hp h
  have hkept : (t.faulted, t.cause, t.fopc) = (s.faulted, s.cause, s.fopc) := by
    by_contra hne
    obtain hreset | ⟨_, hclear⟩ := hfault hne
    · exact he hreset
    · cases hf.symm.trans hclear
  simpa [hf] using hkept

/-- Settles O43: only reset writes the fault register of a faulted block, and it clears it; a fault in a halted
block is one of those left to NOP and RDREG. -/
theorem onlyResetClearsTheFault : Obligations.OnlyResetClearsTheFault := by
  refine ⟨fun _ _ _ _ hp h hf he => fault_kept_of_not_reset hp h hf he,
    fun s t cmd data r hf h hr hstatus => ?cause, fun s t id h => ?reset⟩
  case cause =>
    obtain ⟨c, rfl, _, hhalted⟩ := step_fault_of_status h hr hstatus
    rw [faultResponse_cause]
    exact (hhalted hf).cases
  case reset =>
    cases (step_reset s id).symm.trans h
    exact ⟨rfl, rfl, rfl⟩

/-- Settles O42: HALTED before the word is looked at further, the commands that run past the check, the steps
of the other agents, and the report of a run by the halted state it reaches. -/
theorem haltedBlockAnswersHalted : Obligations.HaltedBlockAnswersHalted := by
  intro s hf
  refine ⟨fun cmd data h0 hD => ?halted, fun cmd data i hd _ => step_of_decode_ok hd s,
    tickCountsDownAndSaturates s, fun ext id n b hp => ?delivery, fun m n s0 hm hrun => ?report⟩
  case halted => exact step_halted hf ((runsWhileHalted_eq_false_iff _).mpr ⟨h0, hD⟩) data
  case delivery => exact ⟨_, deliveryFillsTheEmptyLatch.1 s ext id n b hp, rfl, hf⟩
  case report =>
    obtain ⟨hfaulted, _⟩ := runIsFaultedExactlyIfItReachesTheHaltedState n s0
    exact hfaulted.mpr ⟨m, s, hm, hrun, hf⟩

end Sys2Proof.Machine
end

section
/-! SUPPORT. The two orders of a tick and a check (R99). -/

namespace Sys2Proof.Machine

/-- The LCHK word in a block that is not faulted stores and reports the check's result (R68). -/
theorem step_lchk_running {s : State} (hf : s.faulted = false) (data : Word64) :
    step (s.withNext (.command 0x3000000000000000 data)) =
      .next ((applyCheck s.accepted).answered (aliveResponse (aliveAfterCheck s))) :=
  (step_of_decode_ok (data := data) rfl s).trans (exec_lchk_running hf)

/-- Settles O18: the check finds the countdown at 0 after the tick, and at 1 before it. -/
theorem tickAndCheckInEitherOrder : Obligations.TickAndCheckInEitherOrder := by
  intro s data data' hf hrem halive
  have hticked : (tick s).lvRem = 0 := by simp [hrem]
  have hdead : aliveAfterCheck (tick s) = false := by rw [aliveAfterCheck_eq, if_pos hticked]
  have hchecked : aliveAfterCheck s = true := by simp [aliveAfterCheck_iff, hrem, halive]
  refine ⟨⟨_, _, step_tick _, step_lchk_running (s := tick s) hf data, ?_, hticked, hdead⟩,
    ⟨_, _, step_lchk_running (s := s.withNext .tick) hf data',
      step_tick ((applyCheck s.accepted).answered (aliveResponse (aliveAfterCheck s))), ?_, hticked, hchecked⟩⟩
  · rw [hdead]
    rfl
  · rw [hchecked]
    rfl

end Sys2Proof.Machine
end

section
/-! SUPPORT. Reset, in a step of a run and at its beginning (R107). -/

namespace Sys2Proof.Machine

/-- The reset step leaves the reset values in every field, with its own `NODE_ID` input. -/
theorem resetBlock_hasResetValues (id : BitVec 16) (s : State) : (resetBlock id s).HasResetValues id where
  nodeId := rfl
  lvDur := rfl
  lvRem := rfl
  lvAlive := rfl
  ftCount := rfl
  fault := ⟨rfl, rfl, rfl⟩
  rxf := ⟨rfl, rfl, rfl, fun k => Vector.getElem_replicate k.isLt⟩
  rx := ⟨rfl, rfl, rfl, rfl, fun k => Vector.getElem_replicate k.isLt⟩
  tx := rfl

/-- The reset that begins a run is the reset step, but for what each leaves in the slots and in the model's
own fields, which the reset values do not name (R21, R106). -/
theorem State.reset_hasResetValues : State.reset.HasResetValues Config.nodeIdInput :=
  { resetBlock_hasResetValues Config.nodeIdInput State.reset with }

/-- Settles O45: the reset values of the reset step and of the reset that begins a run; a step of another
agent keeps `FAULTED`. -/
theorem resetSetsEveryField : Obligations.ResetSetsEveryField := by
  refine ⟨fun s id => ⟨_, step_reset s id, resetBlock_hasResetValues id s⟩, State.reset_hasResetValues,
    fun s t e rest hp h hf ht => ?cleared⟩
  by_contra he
  obtain ⟨hkept, _, _⟩ := fault_kept_of_not_reset hp h hf he
  cases hkept.symm.trans ht

end Sys2Proof.Machine
end
